-- ==== Sys2Proof/Word.lean ====
section
/-! DEFINITION. The word types of the links: a byte, as every frame is made of (spec file 12). -/

namespace Sys2Proof

/-- One byte of a frame. -/
abbrev Byte := BitVec 8

end Sys2Proof
end

