-- ==== Sys2Proof/Syntax.lean ====
section
/-! DEFINITION. The commands of spec/opcode_table.json, one constructor a row, and the types of their operands. -/

namespace Sys2Proof

/-- The two cell links (spec file 10). -/
inductive Port where
  | u
  | s
  deriving DecidableEq, Repr

/-- Which face of a lay is up (R4). -/
inductive Face where
  | up
  | down
  deriving DecidableEq, Repr

/-- The four zones, in the order a lay passes them (R69). -/
inductive ZoneId where
  | lift
  | jog
  | buffer
  | table
  deriving DecidableEq, Repr

/-- Station kinds, in the order of their index (Figure 31). -/
inductive StationKind where
  | lift
  | jog
  | xfer
  | gauge
  | clamp
  | knife
  | turn
  | out
  | guard
  deriving DecidableEq, Repr

/-- Lamp settings (Figure 30, Figure 57). -/
inductive LampState where
  | off
  | on
  | blink
  deriving DecidableEq, Repr

/-- Where a piece is delivered (Figure 34, Figure 57). -/
inductive Destination where
  | beltA
  | beltB
  | chute
  deriving DecidableEq, Repr

/-- Refusal reasons of a station (Figure 58). -/
inductive Reason where
  | aborted
  | cannot
  | pileEmpty
  | beltFull
  deriving DecidableEq, Repr

/-- Order kinds with their arguments (Figure 31, Figure 57). -/
inductive OrderKind where
  | ident
  | enable (on : Bool)
  | lamp (value : LampState)
  | stop
  | present (height : Nat)
  | lower
  | jog (ms : Nat)
  | moveLay (source destination : ZoneId)
  | move (position : Nat)
  | pushOut
  | clamp (level : Nat)
  | release
  | stroke
  | rotate (quarters : Nat)
  | invert
  | deliver (destination : Destination)
  | lock
  | unlock
  deriving DecidableEq, Repr

/-- Capabilities of a station (Figure 30, Figure 58). -/
structure Caps where
  lamp : Bool
  lock : Bool
  button : Bool
  enable : Bool
  deriving DecidableEq, Repr

/-- What a station reports (Figure 58). -/
inductive Report where
  | identAns (kind : StationKind) (caps : Caps)
  | done (value : BitVec 32)
  | refused (reason : Reason)
  | pos (value : BitVec 32)
  | strokeBegin
  | fault (code : Byte)
  | button
  | presence (up : Bool)
  | guardState (isOpen locked : Bool)
  deriving DecidableEq, Repr

/-- A ticket (Figure 16). -/
structure Ticket where
  job : Nat
  pile : Nat
  height : Nat
  x : Option Nat
  y : Option Nat
  face : Option Face
  deriving DecidableEq, Repr

/-- A program step as a LOAD_PROGRAM carries it: code and argument (spec file 12). -/
structure RawStep where
  code : Byte
  arg : BitVec 32
  deriving DecidableEq, Repr

/-- The values a LOAD_CELL carries, in the order of Figure 42; `none` where it does not carry the parameter. -/
structure CellLoad where
  gaugeMin : Option (BitVec 32)
  gaugeMax : Option (BitVec 32)
  tableWidth : Option (BitVec 32)
  clampMaxH : Option (BitVec 32)
  fillTime : Option (BitVec 32)
  permitWindow : Option (BitVec 32)
  strokeTime : Option (BitVec 32)
  probeTimeout : Option (BitVec 32)
  idlePark : Option (BitVec 32)
  wakeSettle : Option (BitVec 32)
  knifeWearLimit : Option (BitVec 32)
  deriving DecidableEq, Repr

/-- The configuration a LOAD_SLOT carries, as its bytes stand (Figure 59). -/
structure SlotLoad where
  kind : Byte
  node : Byte
  timeout : BitVec 16
  button : Byte
  lamp : Byte
  forward : Bool
  permitted : BitVec 24
  removable : Bool
  deriving DecidableEq, Repr

/-- The fields a LOAD_JOB carries, as its bytes stand (Figure 59). -/
structure JobLoad where
  job : BitVec 16
  program : Byte
  defaultX : BitVec 32
  defaultY : BitVec 32
  press : Byte
  mode : Byte
  jogTime : BitVec 16
  pinned : Bool
  deriving DecidableEq, Repr

/-- A management request that parses (Figure 59); enumeration codes are not yet checked (R198). -/
inductive Request where
  | echo (data : List Byte)
  | read (view : Byte) (arg : BitVec 16) (clear : Bool)
  | loadCell (values : CellLoad)
  | loadSlot (slot : Byte) (config : Option SlotLoad)
  | loadSeverity (kind : Byte) (cls : Option Byte) (notice : Option Bool)
  | loadProgram (program : Byte) (steps : List RawStep)
  | eraseProgram (program : Byte)
  | loadJob (entry : JobLoad)
  | dropJob (job : BitVec 16)
  | cellControl (action : Byte)
  | layControl (lay action : Byte)
  | takeDelivery
  | clearEvents (flags counters : BitVec 32)
  deriving DecidableEq, Repr

/-- The commands the part takes, one constructor for each row of spec/opcode_table.json.
`node` is a station's address, `tag` an envelope tag; a request row carries the tag of its MGMT frame (log 3). -/
inductive Instr where
  /-- POWER_ON (R170). -/
  | powerOn
  /-- RESET_N_ASSERT (R170). -/
  | resetNAssert
  /-- RESET_N_RELEASE (R170). -/
  | resetNRelease
  /-- BAD_FRAME (R173): the bytes received on a port, and whether the frame was delimited whole. -/
  | badFrame (port : Port) (whole : Bool) (bytes : List Byte)
  /-- TICKET (R175). -/
  | ticket (t : Ticket)
  /-- MGMT (R186). -/
  | mgmt (tag : Byte) (payload : List Byte)
  /-- DIRECT (R177). -/
  | direct (node : Nat) (tag : Byte) (order : OrderKind)
  /-- IDENT_ANS (R119). -/
  | identAns (node : Nat) (tag : Byte) (kind : StationKind) (caps : Caps)
  /-- DONE (R114). -/
  | done (node : Nat) (tag : Byte) (value : BitVec 32)
  /-- REFUSED (R114). -/
  | refused (node : Nat) (tag : Byte) (reason : Reason)
  /-- POS (R124). -/
  | pos (node : Nat) (tag : Byte) (value : BitVec 32)
  /-- STROKE_BEGIN (R98). -/
  | strokeBegin (node : Nat) (tag : Byte)
  /-- FAULT (R121). -/
  | fault (node : Nat) (tag : Byte) (code : Byte)
  /-- BUTTON (R126). -/
  | button (node : Nat) (tag : Byte)
  /-- PRESENCE (R122). -/
  | presence (node : Nat) (tag : Byte) (up : Bool)
  /-- GUARD_STATE (R125). -/
  | guardState (node : Nat) (tag : Byte) (isOpen locked : Bool)
  /-- U_PORT_LOCK_GAINED (R183). -/
  | uPortLockGained
  /-- U_PORT_LOCK_LOST (R183): whether a frame was being received. -/
  | uPortLockLost (receiving : Bool)
  /-- RING_UP (R123). -/
  | ringUp
  /-- RING_DOWN (R123): whether a frame was being received. -/
  | ringDown (receiving : Bool)
  /-- U_PORT_FRAME_END (R182). -/
  | uPortFrameEnd
  /-- ORDER_FRAME_END (R181). -/
  | orderFrameEnd
  /-- FILL_TIMER_EXPIRY (R65). -/
  | fillTimerExpiry
  /-- ORDER_TIMER_EXPIRY (R115). -/
  | orderTimerExpiry (slot : Nat)
  /-- IDENT_TIMER_EXPIRY (R119). -/
  | identTimerExpiry (slot : Nat)
  /-- PERMIT_WINDOW_EXPIRY (R100). -/
  | permitWindowExpiry
  /-- STROKE_TIMER_EXPIRY (R101). -/
  | strokeTimerExpiry
  /-- IDLE_TIMER_EXPIRY (R167). -/
  | idleTimerExpiry
  /-- WAKE_SETTLE_EXPIRY (R168). -/
  | wakeSettleExpiry
  /-- LOCK_WAIT_EXPIRY (R162). -/
  | lockWaitExpiry
  /-- ADMISSION (R54). -/
  | admission
  /-- ECHO (R190). -/
  | echo (tag : Byte) (data : List Byte)
  /-- READ_CELL (R191). -/
  | readCell (tag : Byte)
  /-- READ_LAY (R26). -/
  | readLay (tag : Byte) (lay : BitVec 16)
  /-- READ_SLOT (R129). -/
  | readSlot (tag : Byte) (slot : BitVec 16)
  /-- READ_ZONES (R86). -/
  | readZones (tag : Byte)
  /-- READ_JOB (R68). -/
  | readJob (tag : Byte) (job : BitVec 16)
  /-- READ_JOBS (R68). -/
  | readJobs (tag : Byte)
  /-- READ_PROGRAM (R51). -/
  | readProgram (tag : Byte) (program : BitVec 16)
  /-- READ_EVENTS (R158). -/
  | readEvents (tag : Byte)
  /-- READ_GATE (R108). -/
  | readGate (tag : Byte)
  /-- READ_DELIVERY_HEAD (R141). -/
  | readDeliveryHead (tag : Byte)
  /-- READ_LINK (R184). -/
  | readLink (tag : Byte) (clear : Bool)
  /-- LOAD_CELL (R169). -/
  | loadCell (tag : Byte) (values : CellLoad)
  /-- LOAD_SLOT (R130). -/
  | loadSlot (tag : Byte) (slot : Byte) (config : Option SlotLoad)
  /-- LOAD_SEVERITY (R155). -/
  | loadSeverity (tag : Byte) (kind : Byte) (cls : Option Byte) (notice : Option Bool)
  /-- LOAD_PROGRAM (R29). -/
  | loadProgram (tag : Byte) (program : Byte) (steps : List RawStep)
  /-- ERASE_PROGRAM (R32). -/
  | eraseProgram (tag : Byte) (program : Byte)
  /-- LOAD_JOB (R59). -/
  | loadJob (tag : Byte) (entry : JobLoad)
  /-- DROP_JOB (R61). -/
  | dropJob (tag : Byte) (job : BitVec 16)
  /-- PROBE (R160). -/
  | probe (tag : Byte)
  /-- START (R161). -/
  | start (tag : Byte)
  /-- STOP (R163). -/
  | stop (tag : Byte)
  /-- ACK_HALT (R165). -/
  | ackHalt (tag : Byte)
  /-- RETRAIN (R120). -/
  | retrain (tag : Byte)
  /-- RESET_WEAR (R103). -/
  | resetWear (tag : Byte)
  /-- CELL_RESET (R170). -/
  | cellReset (tag : Byte)
  /-- LAY_CONTROL_HOLD (R18). -/
  | layControlHold (tag : Byte) (lay : Byte)
  /-- LAY_CONTROL_RELEASE (R19). -/
  | layControlRelease (tag : Byte) (lay : Byte)
  /-- LAY_CONTROL_ABANDON (R21). -/
  | layControlAbandon (tag : Byte) (lay : Byte)
  /-- TAKE_DELIVERY (R139). -/
  | takeDelivery (tag : Byte)
  /-- CLEAR_EVENTS (R154). -/
  | clearEvents (tag : Byte) (flags counters : BitVec 32)
  /-- BAD_REQUEST (R198): a MGMT frame whose payload does not parse. -/
  | badRequest (tag : Byte) (payload : List Byte)
  deriving DecidableEq, Repr

end Sys2Proof
end

