-- ==== Sys2Proof/Decode.lean ====
section
/-! DEFINITION. The command a table word spells: none, since no row of spec/opcode_table.json gives bits (log 29).
The links' own encodings are frames, in Machine/Operands.lean. -/

namespace Sys2Proof

/-- No row of the table gives bits, so no word spells a command. -/
def decodeTableWord (_nbits _w : Nat) : Option Instr := none

end Sys2Proof
end

