-- ==== Sys2Proof/Config.lean ====
section
/-! DEFINITION. What the spec leaves open and the model does not choose, and the model's own bound on one event. -/

namespace Sys2Proof

/-- Which of the two comes first where a knife permit and a grant of the mover fall due in one event:
"either may be taken first" (R75, R97). A free value (log 5): no body, so nothing can be proved of it.
The argument is the model's counter of such choices; `true` means the permit is taken first. -/
opaque Config.permitFirst : Nat → Bool

/-- How many pieces of work one event may take before the rest is left in `State.agenda` for the next command
(DESIGN CHOICE, log 6). The spec's own chains are far shorter: 40 steps of a program, 12 slots. -/
def Config.eventBound : Nat := 4000

end Sys2Proof
end

