-- ==== Sys2Proof/Machine/Operands.lean ====
section
/-! DEFINITION. The operands as the links carry them: byte order, the frame envelope and its CRC (R172), and the encodings of
orders, reports, tickets and management requests with their checks (spec file 12, R173, R197, R198). -/

namespace Sys2Proof.Machine

/-! ### Byte order: most significant byte first (spec file 12) -/

def be16 (v : BitVec 16) : List Byte := [v.extractLsb' 8 8, v.extractLsb' 0 8]

def be24 (v : BitVec 24) : List Byte := [v.extractLsb' 16 8, v.extractLsb' 8 8, v.extractLsb' 0 8]

def be32 (v : BitVec 32) : List Byte :=
  [v.extractLsb' 24 8, v.extractLsb' 16 8, v.extractLsb' 8 8, v.extractLsb' 0 8]

def word16 (a b : Byte) : BitVec 16 := a ++ b

def word24 (a b c : Byte) : BitVec 24 := a ++ b ++ c

def word32 (a b c d : Byte) : BitVec 32 := a ++ b ++ c ++ d

/-- A number as one byte. -/
def byteOf (n : Nat) : Byte := BitVec.ofNat 8 n

/-- A number as two bytes. -/
def nat16 (n : Nat) : List Byte := be16 (BitVec.ofNat 16 n)

/-- A number as four bytes. -/
def nat32 (n : Nat) : List Byte := be32 (BitVec.ofNat 32 n)

/-- A flag as one byte, 0 or 1. -/
def flagByte (b : Bool) : Byte := if b then 1 else 0

/-- The flag a byte names: 0 or 1, any other value none. -/
def flagOf (b : Byte) : Option Bool :=
  if b = 0 then some false else if b = 1 then some true else none

/-- `lo ≤ n ≤ hi`. -/
def within (lo hi n : Nat) : Bool := decide (lo ≤ n) && decide (n ≤ hi)

/-! ### The frame check (R172) -/

/-- One bit of the generator x^16 + x^12 + x^5 + 1, most significant bit first. -/
def crcBit (r : BitVec 16) : BitVec 16 := if r.msb then (r <<< 1) ^^^ 0x1021#16 else r <<< 1

/-- One byte fed to the CRC register. -/
def crcByte (r : BitVec 16) (b : Byte) : BitVec 16 :=
  crcBit (crcBit (crcBit (crcBit (crcBit (crcBit (crcBit (crcBit (r ^^^ (b ++ 0#8)))))))))

/-- The CRC over the bytes of a frame, the register starting at all ones (R172). -/
def crc (bytes : List Byte) : BitVec 16 := bytes.foldl crcByte 0xFFFF#16

/-- The frame envelope without its CRC (Figure 45). -/
structure Envelope where
  kind : Byte
  address : Byte
  tag : Byte
  payload : List Byte
  deriving DecidableEq, Repr

/-- The bytes of a frame on a link (Figure 54). -/
def Envelope.bytes (f : Envelope) : List Byte :=
  let body := f.kind :: f.address :: f.tag :: byteOf f.payload.length :: f.payload
  body ++ be16 (crc body)

/-! ### Codes (Figures 31, 55, 57, 58) -/

def StationKind.index : StationKind → Nat
  | .lift => 0
  | .jog => 1
  | .xfer => 2
  | .gauge => 3
  | .clamp => 4
  | .knife => 5
  | .turn => 6
  | .out => 7
  | .guard => 8

/-- The station kind with an index of Figure 31. -/
def stationKindOf : Nat → Option StationKind
  | 0 => some .lift
  | 1 => some .jog
  | 2 => some .xfer
  | 3 => some .gauge
  | 4 => some .clamp
  | 5 => some .knife
  | 6 => some .turn
  | 7 => some .out
  | 8 => some .guard
  | _ => none

def zoneIndex : ZoneId → Nat
  | .lift => 0
  | .jog => 1
  | .buffer => 2
  | .table => 3

def zoneOf : Nat → Option ZoneId
  | 0 => some .lift
  | 1 => some .jog
  | 2 => some .buffer
  | 3 => some .table
  | _ => none

/-- The zone directly after a zone (R173). -/
def nextZone : ZoneId → Option ZoneId
  | .lift => some .jog
  | .jog => some .buffer
  | .buffer => some .table
  | .table => none

def lampIndex : LampState → Nat
  | .off => 0
  | .on => 1
  | .blink => 2

def lampOf : Nat → Option LampState
  | 0 => some .off
  | 1 => some .on
  | 2 => some .blink
  | _ => none

def destinationIndex : Destination → Nat
  | .beltA => 0
  | .beltB => 1
  | .chute => 2

def destinationOf : Nat → Option Destination
  | 0 => some .beltA
  | 1 => some .beltB
  | 2 => some .chute
  | _ => none

/-- Refusal reasons by their code (Figure 58); the detail of ORDER_REFUSED (Figure 37). -/
def reasonIndex : Reason → Nat
  | .aborted => 0
  | .cannot => 1
  | .pileEmpty => 2
  | .beltFull => 3

def reasonOf : Nat → Option Reason
  | 0 => some .aborted
  | 1 => some .cannot
  | 2 => some .pileEmpty
  | 3 => some .beltFull
  | _ => none

/-! ### Orders (Figure 57) -/

/-- The order code. -/
def orderCode : OrderKind → Nat
  | .ident => 0
  | .enable _ => 1
  | .lamp _ => 2
  | .stop => 3
  | .present _ => 4
  | .lower => 5
  | .jog _ => 6
  | .moveLay _ _ => 7
  | .move _ => 8
  | .pushOut => 9
  | .clamp _ => 10
  | .release => 11
  | .stroke => 12
  | .rotate _ => 13
  | .invert => 14
  | .deliver _ => 15
  | .lock => 16
  | .unlock => 17

/-- The argument bytes after the code. -/
def orderArgs : OrderKind → List Byte
  | .enable on => [flagByte on]
  | .lamp v => [byteOf (lampIndex v)]
  | .present h => nat32 h
  | .jog ms => nat16 ms
  | .moveLay a b => [byteOf (zoneIndex a), byteOf (zoneIndex b)]
  | .move p => nat32 p
  | .clamp l => [byteOf l]
  | .rotate q => [byteOf q]
  | .deliver d => [byteOf (destinationIndex d)]
  | .ident | .stop | .lower | .pushOut | .release | .stroke | .invert | .lock | .unlock => []

def encodeOrder (o : OrderKind) : List Byte := byteOf (orderCode o) :: orderArgs o

/-- The payload length an order code gives; none for a code not in Figure 57. -/
def orderLength : Nat → Option Nat
  | 0 | 3 | 5 | 9 | 11 | 12 | 14 | 16 | 17 => some 1
  | 1 | 2 | 10 | 13 | 15 => some 2
  | 6 | 7 => some 3
  | 4 | 8 => some 5
  | _ => none

/-- Every argument within its range of Figure 57; a MOVE_LAY names two zones, the second directly after the first (R173). -/
def orderInRange : OrderKind → Bool
  | .present h => within 1 400000 h
  | .jog ms => within 1 30000 ms
  | .moveLay a b => decide (nextZone a = some b)
  | .move p => within 0 400000 p
  | .clamp l => within 1 8 l
  | .rotate q => within 1 3 q
  | .ident | .enable _ | .lamp _ | .stop | .lower | .pushOut | .release | .stroke | .invert | .deliver _ | .lock | .unlock => true

/-- The order a code and its argument bytes spell, before the range check. -/
def orderOf (code : Nat) (args : List Byte) : Option OrderKind :=
  match code, args with
  | 0, [] => some .ident
  | 1, [v] => (flagOf v).map .enable
  | 2, [v] => (lampOf v.toNat).map .lamp
  | 3, [] => some .stop
  | 4, [a, b, c, d] => some (.present (word32 a b c d).toNat)
  | 5, [] => some .lower
  | 6, [a, b] => some (.jog (word16 a b).toNat)
  | 7, [a, b] => (zoneOf a.toNat).bind fun x => (zoneOf b.toNat).map fun y => .moveLay x y
  | 8, [a, b, c, d] => some (.move (word32 a b c d).toNat)
  | 9, [] => some .pushOut
  | 10, [l] => some (.clamp l.toNat)
  | 11, [] => some .release
  | 12, [] => some .stroke
  | 13, [q] => some (.rotate q.toNat)
  | 14, [] => some .invert
  | 15, [d] => (destinationOf d.toNat).map .deliver
  | 16, [] => some .lock
  | 17, [] => some .unlock
  | _, _ => none

/-- The order an ORDER or DIRECT payload spells, in range (R197 check 6). -/
def parseOrder : List Byte → Option OrderKind
  | [] => none
  | c :: args => (orderOf c.toNat args).filter orderInRange

/-! ### Reports (Figure 58) -/

def capsByte (c : Caps) : Byte :=
  byteOf ((if c.lamp then 1 else 0) + (if c.lock then 2 else 0) + (if c.button then 4 else 0) + (if c.enable then 8 else 0))

/-- The capabilities a byte names; none with any other bit set (R197). -/
def capsOf (b : Byte) : Option Caps :=
  if b.toNat < 16 then some ⟨b.getLsbD 0, b.getLsbD 1, b.getLsbD 2, b.getLsbD 3⟩ else none

def reportCode : Report → Nat
  | .identAns _ _ => 0
  | .done _ => 1
  | .refused _ => 2
  | .pos _ => 3
  | .strokeBegin => 4
  | .fault _ => 5
  | .button => 6
  | .presence _ => 7
  | .guardState _ _ => 8

def reportArgs : Report → List Byte
  | .identAns k c => [byteOf (StationKind.index k), capsByte c]
  | .done v => be32 v
  | .refused r => [byteOf (reasonIndex r)]
  | .pos v => be32 v
  | .strokeBegin => []
  | .fault c => [c]
  | .button => []
  | .presence up => [flagByte up]
  | .guardState isOpen locked => [flagByte isOpen, flagByte locked]

def encodeReport (r : Report) : List Byte := byteOf (reportCode r) :: reportArgs r

/-- The payload length a report code gives; none for a code not in Figure 58. -/
def reportLength : Nat → Option Nat
  | 4 | 6 => some 1
  | 2 | 5 | 7 => some 2
  | 0 | 8 => some 3
  | 1 | 3 => some 5
  | _ => none

/-- The report a REPORT payload spells (R197 check 6). -/
def parseReport : List Byte → Option Report
  | [] => none
  | c :: args =>
    match c.toNat, args with
    | 0, [k, b] => (stationKindOf k.toNat).bind fun kind => (capsOf b).map fun caps => .identAns kind caps
    | 1, [a, b, c, d] => some (.done (word32 a b c d))
    | 2, [r] => (reasonOf r.toNat).map .refused
    | 3, [a, b, c, d] => some (.pos (word32 a b c d))
    | 4, [] => some .strokeBegin
    | 5, [f] => some (.fault f)
    | 6, [] => some .button
    | 7, [u] => (flagOf u).map .presence
    | 8, [o, l] => (flagOf o).bind fun isOpen => (flagOf l).map fun locked => .guardState isOpen locked
    | _, _ => none

/-! ### Tickets (Figure 16, Figure 56) -/

/-- Every present field of a ticket in its range (R52). -/
def ticketInRange (t : Ticket) : Bool :=
  within 1 65535 t.job && within 0 65535 t.pile && within 1 400000 t.height &&
    t.x.all (within 1 400000) && t.y.all (within 1 400000)

def faceCode : Option Face → Nat
  | none => 0
  | some .up => 1
  | some .down => 2

/-- The 17 bytes of a ticket. -/
def encodeTicket (t : Ticket) : List Byte :=
  nat16 t.job ++ nat16 t.pile ++ nat32 t.height ++ nat32 (t.x.getD 0) ++ nat32 (t.y.getD 0) ++ [byteOf (faceCode t.face)]

/-- A size field of a ticket: 0 when the ticket omits it. -/
def sizeOf? (n : Nat) : Option Nat := if n = 0 then none else some n

/-- The ticket a TICKET payload spells, every field in range (R52, R197). -/
def parseTicket : List Byte → Option Ticket
  | [j1, j0, p1, p0, h3, h2, h1, h0, x3, x2, x1, x0, y3, y2, y1, y0, f] =>
    let build := fun (face : Option Face) =>
      ({ job := (word16 j1 j0).toNat, pile := (word16 p1 p0).toNat, height := (word32 h3 h2 h1 h0).toNat,
         x := sizeOf? (word32 x3 x2 x1 x0).toNat, y := sizeOf? (word32 y3 y2 y1 y0).toNat, face := face } : Ticket)
    match f.toNat with
    | 0 => some (build none) |>.filter ticketInRange
    | 1 => some (build (some .up)) |>.filter ticketInRange
    | 2 => some (build (some .down)) |>.filter ticketInRange
    | _ => none
  | _ => none

/-! ### Receiving a frame (R173, R197) -/

/-- The three receive status flags a failed check sets (R173, R174). -/
inductive RxFlag where
  | check
  | framing
  | length
  deriving DecidableEq, Repr

/-- What a receiver makes of the bytes between two marks: the check that failed and the flag it sets, or a good frame. -/
inductive Received where
  | rejected (check : Nat) (flag : Option RxFlag)
  | ticket (t : Ticket)
  | mgmt (tag : Byte) (payload : List Byte)
  | direct (node : Nat) (tag : Byte) (order : OrderKind)
  | report (node : Nat) (tag : Byte) (report : Report)
  deriving DecidableEq, Repr

/-- The length check of a kind whose payload's first byte gives its length; an unknown code passes 1 to 5 (R197). -/
def codedLengthOk (lengthOf : Nat → Option Nat) : List Byte → Bool
  | [] => false
  | c :: args =>
    match lengthOf c.toNat with
    | some n => decide (args.length + 1 = n)
    | none => decide (args.length + 1 ≤ 5)

/-- Checks 4 to 6 of R173 on a frame whose check 1 to 3 passed. -/
def checkKind (port : Port) (kind address : Nat) (tag : Byte) (payload : List Byte) : Received :=
  match port, kind with
  | .u, 1 =>
    if payload.length ≠ 17 then .rejected 5 (some .length)
    else if address ≠ 0 then .rejected 6 none
    else match parseTicket payload with
      | some t => .ticket t
      | none => .rejected 6 none
  | .u, 2 =>
    if payload.length = 0 then .rejected 5 (some .length)
    else if address ≠ 0 then .rejected 6 none
    else .mgmt tag payload
  | .u, 3 =>
    if codedLengthOk orderLength payload = false then .rejected 5 (some .length)
    else if within 1 30 address = false then .rejected 6 none
    else match parseOrder payload with
      | some o => .direct address tag o
      | none => .rejected 6 none
  | .s, 9 =>
    if codedLengthOk reportLength payload = false then .rejected 5 (some .length)
    else if within 0 31 address = false then .rejected 6 none
    else match parseReport payload with
      | some r => .report address tag r
      | none => .rejected 6 none
  | _, _ => .rejected 4 none

/-- The checks of R173 in their order. -/
def receive (port : Port) (whole : Bool) (bytes : List Byte) : Received :=
  match bytes with
  | kind :: address :: tag :: length :: rest =>
    if whole = false ∨ rest.length ≠ length.toNat + 2 then .rejected 1 (some .framing)
    else
      let payload := rest.take length.toNat
      if be16 (crc (kind :: address :: tag :: length :: payload)) ≠ rest.drop length.toNat then .rejected 2 (some .check)
      else if 240 < length.toNat then .rejected 3 (some .length)
      else checkKind port kind.toNat address.toNat tag payload
  | _ => .rejected 1 (some .framing)

/-! ### Management requests (Figure 59, R198) -/

/-- The carried values of a LOAD_CELL in the order of Figure 42. -/
def cellLoadList (c : CellLoad) : List (Option (BitVec 32)) :=
  [c.gaugeMin, c.gaugeMax, c.tableWidth, c.clampMaxH, c.fillTime, c.permitWindow, c.strokeTime, c.probeTimeout, c.idlePark,
    c.wakeSettle, c.knifeWearLimit]

def cellLoadOf : List (Option (BitVec 32)) → Option CellLoad
  | [a, b, c, d, e, f, g, h, i, j, k] => some ⟨a, b, c, d, e, f, g, h, i, j, k⟩
  | _ => none

/-- A presence set: bit i set where the i-th item is present. -/
def presenceSet : List Bool → Nat
  | [] => 0
  | b :: rest => (if b then 1 else 0) + 2 * presenceSet rest

/-- The first n bits of a number, bit 0 first. -/
def lowBits : Nat → Nat → List Bool
  | 0, _ => []
  | n + 1, v => decide (v % 2 = 1) :: lowBits n (v / 2)

/-- The values behind a presence set: four bytes for each present item, nothing left over. -/
def parseCarried : List Bool → List Byte → Option (List (Option (BitVec 32)))
  | [], [] => some []
  | [], _ :: _ => none
  | false :: bits, bytes => (parseCarried bits bytes).map (none :: ·)
  | true :: bits, a :: b :: c :: d :: bytes => (parseCarried bits bytes).map (some (word32 a b c d) :: ·)
  | true :: _, _ => none

def encodeRawStep (s : RawStep) : List Byte := s.code :: be32 s.arg

/-- n steps of five bytes, nothing left over. -/
def parseRawSteps : Nat → List Byte → Option (List RawStep)
  | 0, [] => some []
  | 0, _ :: _ => none
  | n + 1, code :: a :: b :: c :: d :: rest => (parseRawSteps n rest).map (⟨code, word32 a b c d⟩ :: ·)
  | _ + 1, _ => none

def encodeSlotLoad (c : SlotLoad) : List Byte :=
  c.kind :: c.node :: be16 c.timeout ++ [c.button, c.lamp, flagByte c.forward] ++ be24 c.permitted ++ [flagByte c.removable]

def parseSlotLoad : List Byte → Option SlotLoad
  | [k, n, t1, t0, b, l, f, p2, p1, p0, r] =>
    (flagOf f).bind fun forward => (flagOf r).map fun removable =>
      { kind := k, node := n, timeout := word16 t1 t0, button := b, lamp := l, forward := forward,
        permitted := word24 p2 p1 p0, removable := removable }
  | _ => none

def encodeJobLoad (j : JobLoad) : List Byte :=
  be16 j.job ++ [j.program] ++ be32 j.defaultX ++ be32 j.defaultY ++ [j.press, j.mode] ++ be16 j.jogTime ++ [flagByte j.pinned]

def parseJobLoad : List Byte → Option JobLoad
  | [j1, j0, p, x3, x2, x1, x0, y3, y2, y1, y0, pr, m, t1, t0, pin] =>
    (flagOf pin).map fun pinned =>
      { job := word16 j1 j0, program := p, defaultX := word32 x3 x2 x1 x0, defaultY := word32 y3 y2 y1 y0, press := pr,
        mode := m, jogTime := word16 t1 t0, pinned := pinned }
  | _ => none

/-- A LOAD_SEVERITY's fields: presence bits 1 class and 2 notice bit; with presence 0 both bytes are ignored, otherwise the
notice-bit byte is 0 or 1 (R198, log 22). -/
def parseSeverity (kind presence cls notice : Byte) : Option Request :=
  match presence.toNat, flagOf notice with
  | 0, _ => some (.loadSeverity kind none none)
  | 1, some _ => some (.loadSeverity kind (some cls) none)
  | 2, some b => some (.loadSeverity kind none (some b))
  | 3, some b => some (.loadSeverity kind (some cls) (some b))
  | _, _ => none

/-- The code of Figure 59 a request is sent under. -/
def requestCode : Request → Byte
  | .echo _ => 0
  | .read _ _ _ => 1
  | .loadCell _ => 2
  | .loadSlot _ _ => 3
  | .loadSeverity _ _ _ => 4
  | .loadProgram _ _ => 5
  | .eraseProgram _ => 6
  | .loadJob _ => 7
  | .dropJob _ => 8
  | .cellControl _ => 9
  | .layControl _ _ => 10
  | .takeDelivery => 11
  | .clearEvents _ _ => 12

/-- The argument bytes of a request (Figure 59). -/
def requestArgs : Request → List Byte
  | .echo data => data
  | .read view arg clear => view :: be16 arg ++ [flagByte clear]
  | .loadCell values =>
    nat16 (presenceSet ((cellLoadList values).map Option.isSome)) ++ (cellLoadList values).flatMap fun v => (v.map be32).getD []
  | .loadSlot slot none => [slot, 0]
  | .loadSlot slot (some c) => slot :: 1 :: encodeSlotLoad c
  | .loadSeverity kind cls notice =>
    [kind, byteOf ((if cls.isSome then 1 else 0) + (if notice.isSome then 2 else 0)), cls.getD 0, flagByte (notice.getD false)]
  | .loadProgram program steps => program :: byteOf steps.length :: steps.flatMap encodeRawStep
  | .eraseProgram program => [program]
  | .loadJob entry => encodeJobLoad entry
  | .dropJob job => be16 job
  | .cellControl action => [action]
  | .layControl lay action => [lay, action]
  | .takeDelivery => []
  | .clearEvents flags counters => be32 flags ++ be32 counters

/-- A request as a MGMT payload. -/
def encodeRequest (r : Request) : List Byte := requestCode r :: requestArgs r

/-- The request a MGMT payload spells; none where it cannot be parsed, which is answered BAD_REQUEST (R198). A READ's clear-option byte is
parsed in every view (log 22). -/
def parseRequest : List Byte → Option Request
  | [] => none
  | code :: args =>
    match code.toNat, args with
    | 0, data => if data.length ≤ 238 then some (.echo data) else none
    | 1, [view, a1, a0, c] => (flagOf c).map fun clear => .read view (word16 a1 a0) clear
    | 2, p1 :: p0 :: rest =>
      let presence := (word16 p1 p0).toNat
      if presence < 2048 then ((parseCarried (lowBits 11 presence) rest).bind cellLoadOf).map .loadCell else none
    | 3, slot :: configured :: rest =>
      match flagOf configured, rest with
      | some false, [] => some (.loadSlot slot none)
      | some true, _ => (parseSlotLoad rest).map fun c => .loadSlot slot (some c)
      | _, _ => none
    | 4, [kind, presence, cls, notice] => parseSeverity kind presence cls notice
    | 5, program :: count :: rest => (parseRawSteps count.toNat rest).map fun steps => .loadProgram program steps
    | 6, [program] => some (.eraseProgram program)
    | 7, _ => (parseJobLoad args).map .loadJob
    | 8, [j1, j0] => some (.dropJob (word16 j1 j0))
    | 9, [action] => some (.cellControl action)
    | 10, [lay, action] => some (.layControl lay action)
    | 11, [] => some .takeDelivery
    | 12, [f3, f2, f1, f0, c3, c2, c1, c0] => some (.clearEvents (word32 f3 f2 f1 f0) (word32 c3 c2 c1 c0))
    | _, _ => none

end Sys2Proof.Machine
end

