-- ==== Sys2Proof/Machine/State.lean ====
section
/-! DEFINITION. The state of the VL48, block by block (Figure 2), as plain data; the machine after power-on. -/

namespace Sys2Proof.Machine

/-! ### Programs (spec file 02) -/

/-- Product or trim (Figure 34). -/
inductive PieceClass where
  | block
  | waste
  deriving DecidableEq, Repr

/-- The class END carries (Figure 11). -/
inductive EndClass where
  | block
  | waste
  | auto
  deriving DecidableEq, Repr

/-- A stored step (Figure 11). -/
inductive Step where
  | trim (width : Nat)
  | strip (width : Nat)
  | cutAt (position : Nat) (cls : PieceClass)
  | fit (pitch : Nat)
  | repeatNext (count : Nat)
  | turn (quarters : Nat)
  | invert
  | press (level : Nat)
  | note (mark : Nat)
  | pause
  | endProgram (cls : EndClass)
  deriving DecidableEq, Repr

/-! ### Events (spec file 08) -/

/-- The 32 event kinds, in kind order (Figure 37). -/
inductive EventKind where
  | started
  | cellState
  | jobMiss
  | deliveryReady
  | deliveryFull
  | programMark
  | button
  | presenceChanged
  | wear
  | linkCheck
  | linkFormat
  | linkOverrun
  | ticketLost
  | strayReport
  | nullCut
  | repeatIgnored
  | fitCapped
  | badStep
  | sizeLimit
  | gaugeLimit
  | shortCut
  | fillTimeout
  | orderRefused
  | orderTimeout
  | strokeLapse
  | programPause
  | interrupted
  | stationFault
  | stationLost
  | guardOpen
  | unbiddenStroke
  | strokeTimeout
  deriving DecidableEq, Repr

/-- The five classes (R143). -/
inductive EventClass where
  | ignore
  | note
  | advisory
  | lay
  | cell
  deriving DecidableEq, Repr

/-- What an event concerns (R142). -/
inductive Subject where
  | none
  | lay (n : Nat)
  | slot (n : Nat)
  | job (n : Nat)
  deriving DecidableEq, Repr

/-- An event with its subject and detail: a halt cause (R151). -/
structure EventRecord where
  kind : EventKind
  subject : Subject
  detail : Nat
  deriving DecidableEq, Repr

/-- What the Event Unit holds for one kind (R143 to R145, R153). -/
structure KindRecord where
  cls : EventClass
  notice : Bool
  counter : Nat
  flag : Bool
  owed : Option (Subject × Nat)
  deriving DecidableEq, Repr

/-- The deferred hold (R148). -/
structure DeferredHold where
  lay : Nat
  kind : EventKind
  detail : Nat
  deriving DecidableEq, Repr

/-- Event Unit. `kinds` has 32 entries, in kind order. -/
structure EventUnit where
  kinds : List KindRecord
  haltCause : Option EventRecord
  deferred : Option DeferredHold
  deriving DecidableEq, Repr

/-! ### Lays (spec file 01) -/

/-- Lay states (Figure 8). -/
inductive LayState where
  | awaitJob
  | queued
  | moving
  | jogging
  | waiting
  | cutting
  | held
  | draining
  | finishing
  deriving DecidableEq, Repr

/-- Phases of the cut cycle (Figure 25). -/
inductive Phase where
  | positioning
  | clamping
  | stroking
  | releasing
  | turning
  | pushing
  deriving DecidableEq, Repr

/-- Delivery modes (Figure 17). -/
inductive DeliveryMode where
  | beltA
  | beltB
  | alternate
  deriving DecidableEq, Repr

/-- Why a lay is held (R149). -/
inductive HoldCause where
  | event (kind : EventKind) (detail : Nat)
  | requested
  deriving DecidableEq, Repr

/-- A live lay record (Figure 7). While the lay is HELD, `phase` is its resume phase. `abandoned` is the outcome its summary
will carry (R14). -/
structure Lay where
  state : LayState
  job : Nat
  pile : Nat
  program : Option Nat
  step : Option Nat
  runs : Option Nat
  x : Option Nat
  y : Option Nat
  height : Nat
  turns : Nat
  face : Face
  zone : Option ZoneId
  phase : Option Phase
  target : Option Nat
  press : Option Nat
  mode : Option DeliveryMode
  jogTime : Option Nat
  zero : Bool
  short : Bool
  fitq : Option Nat
  fitr : Option Nat
  strokes : Nat
  blocksA : Nat
  blocksB : Nat
  waste : Nat
  holds : Nat
  cause : Option HoldCause
  heldFrom : Option LayState
  holdWanted : Bool
  abandonWanted : Bool
  abandoned : Bool
  deriving DecidableEq, Repr

/-! ### Tickets and jobs (spec file 03) -/

/-- A Job Map entry (Figure 17). -/
structure JobEntry where
  job : Nat
  program : Nat
  defaultX : Nat
  defaultY : Nat
  press : Nat
  mode : DeliveryMode
  jogTime : Nat
  pinned : Bool
  deriving DecidableEq, Repr

/-- The Fill Request with the milliseconds left on its timer (R63). -/
structure FillRequest where
  job : Nat
  left : Nat
  deriving DecidableEq, Repr

/-- Ticket Intake and the Job Map; `jobs` is most recent first. -/
structure Intake where
  tickets : List Ticket
  jobs : List JobEntry
  fill : Option FillRequest
  deriving DecidableEq, Repr

/-! ### Zones (spec file 04) -/

/-- A zone's occupant and reservation (R69). -/
structure Zone where
  occupant : Option Nat
  reservation : Option Nat
  deriving DecidableEq, Repr

/-- The four zones. -/
structure Zones where
  lift : Zone
  jog : Zone
  buffer : Zone
  table : Zone
  deriving DecidableEq, Repr

/-! ### The cut cycle and the gate (spec file 05) -/

/-- The clamp record (R88). -/
inductive ClampRecord where
  | released
  | clamped (lay level : Nat)
  | unknown
  deriving DecidableEq, Repr

/-- The gauge record (R88). -/
inductive GaugeRecord where
  | known (position : Nat) (done : Bool)
  | unknown
  deriving DecidableEq, Repr

/-- The piece in hand (R90). -/
structure PieceInHand where
  lay : Nat
  cls : PieceClass
  depth : Nat
  width : Nat
  deriving DecidableEq, Repr

/-- Cut Cycle Sequencer. `begun` is the phase of the lay on the TABLE that the sequencer has begun (R87, log 18). -/
structure Sequencer where
  clamp : ClampRecord
  gauge : GaugeRecord
  inHand : Option PieceInHand
  begun : Option Phase
  deriving DecidableEq, Repr

/-- Gate states (Figure 26). -/
inductive GateState where
  | closed
  | opened
  | stroke
  | lockedOut
  deriving DecidableEq, Repr

/-- The permit record (R96). -/
structure Permit where
  lay : Nat
  step : Nat
  tag : Nat
  deriving DecidableEq, Repr

/-- The stroke timer: milliseconds elapsed, and the STROKE_TIME it was started at (R98). -/
structure StrokeTimer where
  elapsed : Nat
  limit : Nat
  deriving DecidableEq, Repr

/-- Stroke Gate (R96). `window` is the milliseconds left on the permit window. -/
structure Gate where
  state : GateState
  permit : Option Permit
  permits : Nat
  strokes : Nat
  wear : Nat
  wearReported : Bool
  lastStroke : Option Nat
  longestStroke : Option Nat
  window : Option Nat
  timer : Option StrokeTimer
  deriving DecidableEq, Repr

/-! ### Delivery (spec file 07) -/

/-- Where a piece came from (Figure 34). -/
inductive PieceKind where
  | cut
  | remainder
  deriving DecidableEq, Repr

/-- A piece on the piece list (Figure 34). `late` marks a piece left UNPOSTED in STOPPING, which waits for the next entry into
RUNNING (R136). `number` is the model's own: the piece's own number, by which the end of its DELIVER finds it (log 47). -/
structure Piece where
  lay : Nat
  cls : PieceClass
  depth : Nat
  width : Nat
  kind : PieceKind
  destination : Destination
  posted : Bool
  late : Bool
  number : Nat
  deriving DecidableEq, Repr

/-- A summary record (Figure 35). -/
structure Summary where
  job : Nat
  pile : Nat
  lay : Nat
  abandoned : Bool
  blocksA : Nat
  blocksB : Nat
  waste : Nat
  strokes : Nat
  holds : Nat
  finalStep : Option Nat
  deriving DecidableEq, Repr

/-- Delivery Unit. `toggleB` is the toggle: false names BELT_A, true BELT_B (R132). `nextPiece` is the model's own: the number that
the next piece handed over takes (log 47). -/
structure Delivery where
  toggleB : Bool
  pieces : List Piece
  finishQueue : List Nat
  records : List Summary
  nextPiece : Nat
  deriving DecidableEq, Repr

/-! ### Station slots (spec file 06) -/

/-- Slot states (Figure 32). -/
inductive SlotState where
  | unused
  | absent
  | probing
  | ready
  | faulted
  deriving DecidableEq, Repr

/-- What a BUTTON report does (R126). -/
inductive ButtonAction where
  | none
  | stopCell
  | notify
  deriving DecidableEq, Repr

/-- How a lamp is driven (R127). -/
inductive LampMode where
  | auto
  | fixed (value : LampState)
  deriving DecidableEq, Repr

/-- A slot's configuration (Figure 30). `permitted` has one bit for each order code. -/
structure SlotConfig where
  kind : StationKind
  node : Nat
  timeout : Nat
  button : ButtonAction
  lamp : LampMode
  forward : Bool
  permitted : BitVec 24
  removable : Bool
  deriving DecidableEq, Repr

/-- On whose behalf an order was posted, with what that origin needs to take its end (R111, R113): the origin lay of a lay
origin; for SEQUENCE whether the order was in flight at a halt (R106); for DELIVERY the number of the piece it carries (log 47);
for CELL whether it is one of the starting, waking or parking orders under way (R161, R167, R168); for DIRECT its answer tag. -/
inductive Source where
  | sequence (lay : Nat) (beforeHalt : Bool)
  | arbiter (lay : Nat)
  | gate (lay : Nat)
  | delivery (lay : Nat) (piece : Nat)
  | cell (awaited : Bool)
  | lamp
  | direct (answerTag : Byte)
  deriving DecidableEq, Repr

/-- An order. Only a STOP has more than one source (R116). -/
structure Order where
  kind : OrderKind
  sources : List Source
  deriving DecidableEq, Repr

/-- The order in flight, with the milliseconds left on its timer (R112). -/
structure InFlight where
  tag : Nat
  order : Order
  left : Nat
  deriving DecidableEq, Repr

/-- An announced STOP (R116). -/
structure Announced where
  tag : Nat
  order : Order
  deriving DecidableEq, Repr

/-- A last reported position (R124). -/
inductive Position where
  | top
  | away
  | value (v : Nat)
  deriving DecidableEq, Repr

/-- A last guard state (R125). -/
structure GuardState where
  isOpen : Bool
  locked : Bool
  deriving DecidableEq, Repr

/-- A slot record (Figure 30). `wanted` is the value AUTO wants (R127). -/
structure Slot where
  config : Option SlotConfig
  state : SlotState
  caps : Option Caps
  inFlight : Option InFlight
  announced : Option Announced
  posted : List Order
  waiting : List Order
  lampPending : Option LampState
  wanted : LampState
  nextTag : Nat
  position : Option Position
  guard : Option GuardState
  drive : Bool
  lamp : LampState
  faultCode : Option Byte
  lastStrokeTag : Option Nat
  deriving DecidableEq, Repr

/-! ### Cell Control (spec file 09) -/

/-- Cell states, in the order of their index (Figure 41). -/
inductive CellState where
  | off
  | probing
  | standby
  | starting
  | running
  | stopping
  | halted
  | parking
  | parked
  | waking
  deriving DecidableEq, Repr

/-- Cell parameters (Figure 42). -/
structure CellParams where
  gaugeMin : Nat
  gaugeMax : Nat
  tableWidth : Nat
  clampMaxH : Nat
  fillTime : Nat
  permitWindow : Nat
  strokeTime : Nat
  probeTimeout : Nat
  idlePark : Nat
  wakeSettle : Nat
  knifeWearLimit : Nat
  deriving DecidableEq, Repr

/-- Cell Control (R159). The timers hold the milliseconds left. -/
structure CellControl where
  state : CellState
  idle : Option Nat
  settle : Option Nat
  lockWait : Option Nat
  wakeWanted : Bool
  params : CellParams
  deriving DecidableEq, Repr

/-! ### The links (spec file 10) -/

/-- Receive status flags of a port (R174). -/
structure RxFlags where
  check : Bool
  framing : Bool
  length : Bool
  overrun : Bool
  sum : Bool
  deriving DecidableEq, Repr

/-- Statistics of the U-port (Figure 47). -/
structure UStats where
  good : Nat
  checkFailures : Nat
  formatFailures : Nat
  tickets : Nat
  requests : Nat
  requestOverruns : Nat
  directsAccepted : Nat
  directsRefused : Nat
  directOverruns : Nat
  replies : Nat
  notices : Nat
  copies : Nat
  copiesDropped : Nat
  lockLosses : Nat
  deriving DecidableEq, Repr

/-- Statistics of the S-port (Figure 47). -/
structure SStats where
  good : Nat
  checkFailures : Nat
  formatFailures : Nat
  reports : Nat
  unknownNode : Nat
  orders : Nat
  lockLosses : Nat
  deriving DecidableEq, Repr

/-- The kinds of frame sent on the U-port (Figure 46). -/
inductive SentKind where
  | reply
  | notice
  | directAnswer
  | copy
  deriving DecidableEq, Repr

/-- A frame sent on the U-port. -/
structure UFrame where
  kind : SentKind
  address : Nat
  tag : Byte
  payload : List Byte
  deriving DecidableEq, Repr

/-- A copy of a report (R180). -/
structure Copy where
  slot : Nat
  node : Nat
  tag : Byte
  report : Report
  deriving DecidableEq, Repr

/-- An ORDER frame on the S-port (R181). -/
structure OrderFrame where
  slot : Nat
  node : Nat
  tag : Nat
  kind : OrderKind
  deriving DecidableEq, Repr

/-- Link Unit. `uLock` is the U-port's lock, `ringUp` the ring state; `sending` and `leaving` are the frames being sent. -/
structure LinkUnit where
  uLock : Bool
  ringUp : Bool
  uFlags : RxFlags
  sFlags : RxFlags
  uStats : UStats
  sStats : SStats
  sending : Option UFrame
  answers : List UFrame
  credit : Nat
  copies : List Copy
  leaving : Option OrderFrame
  output : List OrderFrame
  deriving DecidableEq, Repr

/-- A management request waiting (R186). -/
structure MgmtEntry where
  tag : Byte
  payload : List Byte
  deriving DecidableEq, Repr

/-! ### Work inside one event -/

/-- How an order ends (R113). -/
inductive End where
  | done (value : BitVec 32)
  | refused (reason : Reason)
  | timedOut
  | dropped
  | lost
  deriving DecidableEq, Repr

/-- A piece of work an event still has to do, in order. One event's work is a list of these (R142: each event raised is taken
in full before the next); Machine/Agenda.lean says what each does. -/
inductive Task where
  /-- Take an event (R142). -/
  | raise (kind : EventKind) (subject : Subject) (detail : Nat)
  /-- The gate and the lay on the TABLE at a halt (R105). -/
  | haltTable
  /-- The slots' posted orders of lay origins at a halt (R117, step 1). -/
  | haltDrop
  /-- STOP to every READY slot (R117, step 2). -/
  | haltStop
  /-- An order has ended; its sources are told (R113). -/
  | ended (slot : Nat) (tag : Option Nat) (order : Order) (how : End)
  /-- One source takes the end of its order. -/
  | endFor (slot : Nat) (tag : Option Nat) (kind : OrderKind) (source : Source) (how : End)
  /-- An order is posted to a slot (R111). -/
  | post (slot : Nat) (order : Order)
  /-- The end of a present or move of a lay whose abandon waits (R21, R23). -/
  | moveEnded (lay : Nat)
  /-- A step's failed check gives the step up where its event did not hold the lay (R44). -/
  | giveUp (lay : Nat)
  /-- A step executes once where REPEAT_IGNORED did not hold its lay (R35). -/
  | execUnheld (lay : Nat)
  /-- A lay without a program drains where BAD_STEP did not hold it (R34). -/
  | drainUnheld (lay : Nat)
  /-- A lay is tested for finishing (R137). -/
  | finishTest (lay : Nat)
  /-- An unbidden stroke with its detail (R102). -/
  | unbidden (detail : Nat)
  /-- KNIFE ENABLE(off) on an entry into LOCKED_OUT (R102). -/
  | lockOutOrder
  /-- The cell enters a state (R159). -/
  | enter (state : CellState)
  /-- PARKED where every parking order has ended (R167). -/
  | parkTest
  /-- The tests of the entry into WAKING (R168). -/
  | wakeTest
  /-- A LOAD_SLOT writes its configuration (R130). -/
  | writeSlot (slot : Nat) (config : Option SlotConfig)
  /-- A copy of a report (R180). -/
  | copy (copy : Copy)
  /-- Binding of a lay to a Job Map entry (R9). -/
  | bind (lay : Nat) (entry : JobEntry)
  /-- The fill timer has run out: the request ends (R65). -/
  | fillEnds
  /-- A RELEASE goes on after its re-check (R19, R20). -/
  | release (lay : Nat)
  /-- A RELEASE whose re-check failed: held again where the event's class holds a lay (R20). -/
  | recheckFailed (lay : Nat) (kind : EventKind) (detail : Nat)
  /-- STOP asked of Cell Control by a button (R126). -/
  | stopAsked
  /-- Whatever now waits only for a condition that holds. -/
  | settle
  deriving DecidableEq, Repr

/-- The state of the part. `lays` has 8 entries (a free record is `none`), `programs` 64, `slots` 12. `pending` is the queue of
commands, `agenda` the work of an event left over beyond Config.eventBound (log 6), `choices` the count of free choices taken
(log 5); these three are the model's own. -/
structure State where
  pending : List Instr
  agenda : List Task
  choices : Nat
  resetHeld : Bool
  link : LinkUnit
  mgmt : List MgmtEntry
  intake : Intake
  programs : List (Option (List Step))
  lays : List (Option Lay)
  order : List Nat
  zones : Zones
  seq : Sequencer
  gate : Gate
  slots : List Slot
  delivery : Delivery
  events : EventUnit
  cell : CellControl
  deriving DecidableEq, Repr

/-- No command stops the part, so the model has no fault: what goes wrong is an event, a flag or a result code (spec file 08). -/
inductive Fault where
  deriving DecidableEq, Repr

/-- The one refusal the interface asks for; no arm of exec raises it. -/
inductive Refusal where
  /-- Raised by an arm of exec that has no meaning yet (none is left); safe: nothing is claimed of such a command. -/
  | notModelled (mnemonic : String)
  deriving DecidableEq, Repr

/-! ### Reset values -/

/-- The default class of each kind, in kind order (Figure 37). -/
def defaultClasses : List EventClass :=
  [.note, .note, .note, .note, .note, .note, .note, .note, .note] ++
  [.advisory, .advisory, .advisory, .advisory, .advisory, .advisory, .advisory, .advisory] ++
  [.lay, .lay, .lay, .lay, .lay, .lay, .lay, .lay, .lay, .lay] ++
  [.cell, .cell, .cell, .cell, .cell]

/-- Event Unit before STARTED is taken (R157). -/
def EventUnit.initial : EventUnit where
  kinds := defaultClasses.map fun c => { cls := c, notice := true, counter := 0, flag := false, owed := none }
  haltCause := none
  deferred := none

/-- The defaults of Figure 42. -/
def CellParams.default : CellParams where
  gaugeMin := 2500
  gaugeMax := 132000
  tableWidth := 132000
  clampMaxH := 16500
  fillTime := 5000
  permitWindow := 300
  strokeTime := 2000
  probeTimeout := 200
  idlePark := 300000
  wakeSettle := 1500
  knifeWearLimit := 0

/-- An UNUSED slot after power-on (R128). -/
def Slot.unused : Slot where
  config := none
  state := .unused
  caps := none
  inFlight := none
  announced := none
  posted := []
  waiting := []
  lampPending := none
  wanted := .off
  nextTag := 0
  position := none
  guard := none
  drive := false
  lamp := .off
  faultCode := none
  lastStrokeTag := none

def RxFlags.clear : RxFlags := ⟨false, false, false, false, false⟩

def Zone.free : Zone := ⟨none, none⟩

/-- Link Unit after power-on (R185). -/
def LinkUnit.initial : LinkUnit where
  uLock := false
  ringUp := false
  uFlags := .clear
  sFlags := .clear
  uStats := ⟨0, 0, 0, 0, 0, 0, 0, 0, 0, 0, 0, 0, 0, 0⟩
  sStats := ⟨0, 0, 0, 0, 0, 0, 0⟩
  sending := none
  answers := []
  credit := 0
  copies := []
  leaving := none
  output := []

/-- Every block at its power-on value, STARTED not yet taken (R25, R27, R67, R85, R107, R128, R140, R157, R170, R185, R195). -/
def State.blank : State where
  pending := []
  agenda := []
  choices := 0
  resetHeld := false
  link := .initial
  mgmt := []
  intake := ⟨[], [], none⟩
  programs := List.replicate 64 none
  lays := List.replicate 8 none
  order := []
  zones := ⟨.free, .free, .free, .free⟩
  seq := ⟨.unknown, .unknown, none, none⟩
  gate := { state := .closed, permit := none, permits := 0, strokes := 0, wear := 0, wearReported := false,
            lastStroke := none, longestStroke := none, window := none, timer := none }
  slots := List.replicate 12 .unused
  delivery := ⟨false, [], [], [], 0⟩
  events := .initial
  cell := { state := .off, idle := none, settle := none, lockWait := none, wakeWanted := false, params := .default }

/-- STARTED taken: its counter 1, its flag set, its notice owed with the detail 0 (power-on) or 1 (RESET_N) (R157). -/
def EventUnit.started (detail : Nat) : EventUnit where
  kinds := { cls := .note, notice := true, counter := 1, flag := true, owed := some (.none, detail) } :: EventUnit.initial.kinds.tail
  haltCause := none
  deferred := none

/-- The part right after power-on (R157, R170). -/
def State.reset : State := { State.blank with events := .started 0 }

end Sys2Proof.Machine
end

