-- ==== Sys2Proof/Machine/Ops.lean ====
section
/-! DEFINITION. The shared operations on the state: reading and writing lays, zones, slots and orders; an order's life in its slot
(R110 to R116, R127, R181); saturating counters; cell-wide readings that several blocks share. -/

namespace Sys2Proof.Machine

/-- What a piece of work answers: the state after it, and the work it gives rise to, in order (R142). -/
abbrev Effect := State × List Task

/-! ### Counters (Figure 3) -/

/-- A counter rises by one and stays at its maximum. -/
def bump (limit n : Nat) : Nat := if n < limit then n + 1 else limit

def bump16 (n : Nat) : Nat := bump 65535 n

def bump32 (n : Nat) : Nat := bump 4294967295 n

/-! ### Lays -/

def State.lay? (s : State) (n : Nat) : Option Lay := (s.lays[n]?).getD none

def State.setLay (s : State) (n : Nat) (l : Option Lay) : State := { s with lays := s.lays.set n l }

/-- Change a live lay's record; a free record stays free (R1). -/
def State.updateLay (s : State) (n : Nat) (f : Lay → Lay) : State :=
  match s.lay? n with
  | some l => s.setLay n (some (f l))
  | none => s

/-- The state the lay has, or would have had it not been held (R16). -/
def Lay.eff (l : Lay) : LayState :=
  if l.state = .held then l.heldFrom.getD .held else l.state

/-- Move the lay to a state, or its held-from where it is HELD (R16). -/
def Lay.setEff (st : LayState) (l : Lay) : Lay :=
  if l.state = .held then { l with heldFrom := some st } else { l with state := st }

/-- The lay enters HELD (R15); `phase` stands on as the resume phase. -/
def Lay.hold (cause : HoldCause) (l : Lay) : Lay :=
  if l.state = .held then l
  else { l with state := .held, heldFrom := some l.state, cause := some cause, holds := bump16 l.holds, holdWanted := false }

/-- The hold ends: the lay is in a state again, cause and held-from absent (R149). -/
def Lay.unhold (st : LayState) (l : Lay) : Lay := { l with state := st, cause := none, heldFrom := none }

/-- `step` advances by one. -/
def Lay.advance (l : Lay) : Lay := { l with step := l.step.map (· + 1) }

/-- No record is live (R1). -/
def State.tableEmpty (s : State) : Bool := s.lays.all Option.isNone

/-- The lay is live and not HELD. -/
def State.unheld (s : State) (n : Nat) : Bool := (s.lay? n).any fun l => decide (l.state ≠ .held)

/-- The steps of a program slot; none where it is empty. -/
def State.program (s : State) (p : Nat) : Option (List Step) := (s.programs[p]?).getD none

/-- The step the lay stands at. -/
def State.stepOf (s : State) (l : Lay) : Option Step :=
  l.program.bind fun p => (s.program p).bind fun steps => l.step.bind fun i => steps[i]?

/-- The lay's step index as an event's detail. -/
def State.stepDetail (s : State) (n : Nat) : Nat := ((s.lay? n).bind Lay.step).getD 0

/-! ### Zones (R69) -/

def Zones.get (z : Zones) : ZoneId → Zone
  | .lift => z.lift
  | .jog => z.jog
  | .buffer => z.buffer
  | .table => z.table

def Zones.set (z : Zones) (i : ZoneId) (v : Zone) : Zones :=
  match i with
  | .lift => { z with lift := v }
  | .jog => { z with jog := v }
  | .buffer => { z with buffer := v }
  | .table => { z with table := v }

def Zone.isFree (z : Zone) : Bool := z.occupant.isNone && z.reservation.isNone

def State.zone (s : State) (i : ZoneId) : Zone := s.zones.get i

def State.setZone (s : State) (i : ZoneId) (v : Zone) : State := { s with zones := s.zones.set i v }

/-- The zone's reservation is dropped (R72, R78, R79). -/
def State.unreserve (s : State) (i : ZoneId) : State := s.setZone i { s.zone i with reservation := none }

/-- The lay becomes the zone's occupant (R69): occupant and zone field change together. -/
def State.occupy (s : State) (i : ZoneId) (n : Nat) : State :=
  (s.setZone i ⟨some n, none⟩).updateLay n fun l => { l with zone := some i }

/-- The zone's occupant leaves it: the occupant is cleared and the lay stands in no zone. -/
def State.vacate (s : State) (i : ZoneId) (n : Nat) : State :=
  (s.setZone i { s.zone i with occupant := none }).updateLay n fun l => { l with zone := none }

/-- Some zone's reservation names the lay. -/
def State.reservedFor (s : State) (n : Nat) : Bool :=
  [ZoneId.lift, .jog, .buffer, .table].any fun i => decide ((s.zone i).reservation = some n)

/-! ### Slots -/

def State.slot (s : State) (k : Nat) : Slot := (s.slots[k]?).getD .unused

def State.setSlot (s : State) (k : Nat) (x : Slot) : State := { s with slots := s.slots.set k x }

def State.updateSlot (s : State) (k : Nat) (f : Slot → Slot) : State := s.setSlot k (f (s.slot k))

def Slot.isKind (kind : StationKind) (x : Slot) : Bool := x.config.any fun c => decide (c.kind = kind)

/-- The working slot of a kind: the lowest-numbered configured slot of it (R109). -/
def State.working (s : State) (kind : StationKind) : Option Nat := s.slots.findIdx? (Slot.isKind kind)

def State.workingSlot (s : State) (kind : StationKind) : Option Slot := (s.working kind).map s.slot

/-- The configured slot with a node address (R179). -/
def State.slotAt (s : State) (node : Nat) : Option Nat :=
  s.slots.findIdx? fun x => x.config.any fun c => decide (c.node = node)

/-- The working slot of the kind is READY. -/
def State.kindReady (s : State) (kind : StationKind) : Bool :=
  (s.workingSlot kind).any fun x => decide (x.state = .ready)

/-- Every order of the slot: in flight, announced, posted and waiting. -/
def Slot.orders (x : Slot) : List Order :=
  (x.inFlight.map InFlight.order).toList ++ (x.announced.map Announced.order).toList ++ x.posted ++ x.waiting

/-- The lay of a lay origin. -/
def Source.lay? : Source → Option Nat
  | .sequence n _ | .arbiter n | .gate n | .delivery n _ => some n
  | .cell _ | .lamp | .direct _ => none

/-- SEQUENCE, ARBITER, GATE and DELIVERY are the lay origins. -/
def Source.isLayOrigin (o : Source) : Bool := o.lay?.isSome

/-- The order's origin is a lay origin; a joined STOP only where every one of its origins is (log 15). -/
def Order.isLayOrigin (o : Order) : Bool := o.sources.all Source.isLayOrigin

/-- The origin lay (R115); of a joined STOP the lay of the first lay origin in joining order (log 39). -/
def Order.lay? (o : Order) : Option Nat := o.sources.findSome? Source.lay?

/-- An order with such an origin is posted, waiting, announced or in flight in some slot. -/
def State.outstanding (s : State) (p : Source → Bool) : Bool :=
  s.slots.any fun x => x.orders.any fun o => o.sources.any p

/-- A sequencer order of the lay is outstanding (R87). -/
def State.sequencing (s : State) (n : Nat) : Bool :=
  s.outstanding fun o => match o with
    | .sequence m _ => decide (m = n)
    | _ => false

/-- An arbiter order of the lay is outstanding. -/
def State.arbitrating (s : State) (n : Nat) : Bool :=
  s.outstanding fun o => decide (o = .arbiter n)

/-- A starting, waking or parking order is outstanding (R161, R167, R168). -/
def State.awaiting (s : State) : Bool := s.outstanding fun o => decide (o = .cell true)

/-- The starting, waking or parking orders under way no longer concern Cell Control (R162, R164). -/
def Source.detach : Source → Source
  | .cell _ => .cell false
  | o => o

/-- An in-flight sequencer order is marked as sent before a halt (R106, log 16). -/
def Source.markHalt : Source → Source
  | .sequence n _ => .sequence n true
  | o => o

def Order.mapSources (f : Source → Source) (o : Order) : Order := { o with sources := o.sources.map f }

/-- Change the sources of every order of a slot. -/
def Slot.mapSources (f : Source → Source) (x : Slot) : Slot :=
  { x with
    inFlight := x.inFlight.map fun i => { i with order := i.order.mapSources f }
    announced := x.announced.map fun a => { a with order := a.order.mapSources f }
    posted := x.posted.map (Order.mapSources f)
    waiting := x.waiting.map (Order.mapSources f) }

def State.detachCell (s : State) : State := { s with slots := s.slots.map (Slot.mapSources .detach) }

/-- The waiting orders join the posted queue's tail while it has room (R111). -/
def Slot.refill (x : Slot) : Slot :=
  { x with posted := x.posted ++ x.waiting.take (4 - x.posted.length), waiting := x.waiting.drop (4 - x.posted.length) }

/-! ### The S-port output (R181) -/

/-- An ORDER frame is handed to the S-port transmitter; nothing is sent while the ring is DOWN (R123). -/
def LinkUnit.handFrame (f : OrderFrame) (u : LinkUnit) : LinkUnit :=
  if u.ringUp = false then u
  else match u.leaving with
    | none => { u with leaving := some f }
    | some _ => { u with output := u.output ++ [f] }

def State.handFrame (s : State) (f : OrderFrame) : State := { s with link := s.link.handFrame f }

/-- The tag of the order in flight, if any. -/
def Slot.flightTags (x : Slot) : List Nat := (x.inFlight.map InFlight.tag).toList

/-- The tags of the order in flight and the announced STOP: those of every frame of the slot that may still wait (R181). -/
def Slot.tags (x : Slot) : List Nat := x.flightTags ++ (x.announced.map Announced.tag).toList

/-- The frames of a slot with such tags that have not begun to leave are withdrawn (R181); so is the frame of an order that ends in any
way before it, which keeps the list at two frames a slot (log 43). -/
def State.withdraw (s : State) (k : Nat) (tags : List Nat) : State :=
  { s with link := { s.link with output := s.link.output.filter fun f => !(decide (f.slot = k) && decide (f.tag ∈ tags)) } }

/-! ### Sending (R112) -/

/-- A slot sends an order: it takes the next tag, its timer starts, its ORDER frame is handed over. -/
def State.sendOrder (s : State) (k : Nat) (o : Order) (ms : Nat) : State :=
  let x := s.slot k
  let tag := x.nextTag
  let x' := { x with
    inFlight := some ⟨tag, o, ms⟩
    nextTag := (tag + 1) % 16
    lastStrokeTag := if o.kind = .stroke then some tag else x.lastStrokeTag }
  (s.setSlot k x').handFrame ⟨k, (x.config.map SlotConfig.node).getD 0, tag, o.kind⟩

/-- The slot's order timeout. -/
def Slot.timeoutOf (x : Slot) : Nat := (x.config.map SlotConfig.timeout).getD 0

/-- The station lacks the capability the order needs; absent capabilities count as none (R110). -/
def Slot.completesLocally (x : Slot) : OrderKind → Bool
  | .lamp _ => !(x.caps.any Caps.lamp)
  | .lock | .unlock => !(x.caps.any Caps.lock)
  | .enable _ => !(x.caps.any Caps.enable)
  | _ => false

/-- The lamp pending value is sent as LAMP, or completed locally (R127). -/
def State.sendLamp (s : State) (k : Nat) (v : LampState) : State :=
  let x := s.slot k
  let s' := s.setSlot k { x with lampPending := none, lamp := v }
  if x.completesLocally (.lamp v) then s' else s'.sendOrder k ⟨.lamp v, [.lamp]⟩ x.timeoutOf

/-- The oldest posted order is sent. -/
def State.sendHead (s : State) (k : Nat) (o : Order) (rest : List Order) : State :=
  let x := s.slot k
  (s.setSlot k ({ x with posted := rest }).refill).sendOrder k o x.timeoutOf

/-- What a READY slot with no order in flight sends (R112, R127). -/
def State.sendReady (s : State) (k : Nat) : Option State :=
  let x := s.slot k
  match x.posted, x.lampPending with
  | [], none => none
  | [], some v => some (s.sendLamp k v)
  | o :: rest, none => some (s.sendHead k o rest)
  | o :: rest, some v =>
    if o.kind = .stop ∨ o.kind = .stroke then some (s.sendHead k o rest) else some (s.sendLamp k v)

/-- What the slot sends next, if anything (R112). -/
def State.slotSend (s : State) (k : Nat) : Option State :=
  let x := s.slot k
  if x.inFlight.isSome then none
  else match x.state with
    | .ready => s.sendReady k
    | .probing => some (s.sendOrder k ⟨.ident, [.cell false]⟩ s.cell.params.probeTimeout)
    | .faulted => x.lampPending.map (s.sendLamp k)
    | .absent | .unused => none

/-! ### The end of an order (R113) -/

/-- The order in flight ends; an announced STOP becomes the order in flight and its timer starts (R116). -/
def Slot.clearFlight (x : Slot) : Slot :=
  { x with inFlight := x.announced.map fun a => ⟨a.tag, a.order, x.timeoutOf⟩, announced := none }

/-- The end of a present or a move is a phase boundary of its lay (R17). -/
def moveEnds (o : Order) : List Task :=
  match o.kind with
  | .present _ | .moveLay _ _ => (o.lay?.map Task.moveEnded).toList
  | _ => []

/-- The work an order's end gives rise to: it is handed to its origin before any event the slot raises for it (R113), then
ORDER_TIMEOUT where it timed out (R115), then the lay's phase boundary (log 10). -/
def endTasks (k : Nat) (tag : Option Nat) (o : Order) (how : End) : List Task :=
  .ended k tag o how ::
    (if how = .timedOut then
      [.raise .orderTimeout ((o.lay?.map Subject.lay).getD .none) (k * 16 + tag.getD 0)] else []) ++ moveEnds o

/-- The order in flight leaves its slot: the record becomes `x`, and the order's frame, if it still waits, is withdrawn (R113, R181). -/
def State.endFlight (s : State) (k : Nat) (x : Slot) : State := (s.withdraw k (s.slot k).flightTags).setSlot k x

/-- The slot enters ABSENT (R118); the order in flight and the announced STOP are lost (R122, R123). -/
def Slot.toAbsent (x : Slot) : Slot :=
  { x with state := .absent, caps := none, inFlight := none, announced := none, position := none, guard := none, drive := false,
           lastStrokeTag := none }

/-- The hand-overs of the orders a slot loses, the order in flight first (log 40). -/
def Slot.lostTasks (k : Nat) (x : Slot) : List Task :=
  ((x.inFlight.map fun i => endTasks k (some i.tag) i.order .lost).getD []) ++
    ((x.announced.map fun a => endTasks k (some a.tag) a.order .lost).getD [])

/-- The slot's work is ended: nothing in flight, announced, posted or waiting (R128, R130). -/
def Slot.cleared (x : Slot) : Slot := { x with inFlight := none, announced := none, posted := [], waiting := [] }

/-- The hand-overs of the orders a LOAD_SLOT drops (R130): the order in flight first, then the announced STOP, the posted and the waiting
orders (log 44). -/
def Slot.droppedTasks (k : Nat) (x : Slot) : List Task := x.orders.flatMap fun o => endTasks k none o .dropped

/-! ### Posting (R111, R116) -/

/-- Whether a posted order may make way for a CELL order: not of origin CELL, not a STOP. -/
def Order.givesWay (o : Order) : Bool :=
  decide (o.kind ≠ .stop) && o.sources.all fun c => match c with
    | .cell _ => false
    | _ => true

/-- The list without its youngest element that satisfies p, and that element. -/
def dropYoungest (p : Order → Bool) : List Order → Option (List Order × Order)
  | [] => none
  | o :: rest =>
    match dropYoungest p rest with
    | some (rest', d) => some (o :: rest', d)
    | none => if p o then some (rest, o) else none

/-- A full queue: the order's origin decides (R111). A CELL order that finds nothing that may give way waits, also where a STOP of
another origin stands among the posted orders (log 38). A DIRECT order is not placed; R177 has tested the room before. -/
def placeFull (k : Nat) (o : Order) (s : State) : Effect :=
  let x := s.slot k
  if o.isLayOrigin then (s.setSlot k { x with waiting := x.waiting ++ [o] }, [])
  else if o.sources.any (fun c => decide (c = .cell true) || decide (c = .cell false)) then
    match dropYoungest Order.givesWay x.posted with
    | some (rest, d) => (s.setSlot k { x with posted := rest ++ [o] }, endTasks k none d .dropped)
    | none => (s.setSlot k { x with waiting := x.waiting ++ [o] }, [])
  else (s, [])

/-- The STOP's frame leaves at once, ahead of its turn in flight (R116). -/
def announceStop (k : Nat) (o : Order) (s : State) : State :=
  let x := s.slot k
  let x' := { x with announced := some ⟨x.nextTag, o⟩, nextTag := (x.nextTag + 1) % 16 }
  (s.setSlot k x').handFrame ⟨k, (x.config.map SlotConfig.node).getD 0, x.nextTag, .stop⟩

/-- The STOP goes to the head of the posted queue; a fifth posted order makes the youngest other than a STOP drop
(R116), at a halt too, be it of origin CELL (log 50). -/
def headStop (k : Nat) (o : Order) (s : State) : Effect :=
  let x := s.slot k
  let posted := o :: x.posted
  if posted.length ≤ 4 then (s.setSlot k { x with posted := posted }, [])
  else match dropYoungest (fun d => decide (d.kind ≠ .stop)) posted with
    | some (rest, d) => (s.setSlot k { x with posted := rest }, endTasks k none d .dropped)
    | none => (s.setSlot k { x with posted := posted }, [])

/-- A STOP joins another: its origins are added to that one's. One that stands among them already is not added again, but a DIRECT order
always is, for it has an answer of its own (R116, log 51). -/
def Order.join (old new : Order) : Order :=
  { old with sources := old.sources ++ new.sources.filter fun c => match c with
    | .direct _ => true
    | _ => decide (c ∉ old.sources) }

/-- A posted STOP is placed (R116). -/
def placeStop (k : Nat) (o : Order) (s : State) : Effect :=
  let x := s.slot k
  match x.announced, x.inFlight, x.posted with
  | some a, _, _ => (s.setSlot k { x with announced := some { a with order := a.order.join o } }, [])
  | none, some i, [] =>
    if i.order.kind = .stop then (s.setSlot k { x with inFlight := some { i with order := i.order.join o } }, [])
    else if x.state = .ready ∨ x.state = .faulted then (announceStop k o s, [])
    else headStop k o s
  | none, some i, h :: rest =>
    if i.order.kind = .stop then (s.setSlot k { x with inFlight := some { i with order := i.order.join o } }, [])
    else if h.kind = .stop then (s.setSlot k { x with posted := h.join o :: rest }, [])
    else if x.state = .ready ∨ x.state = .faulted then (announceStop k o s, [])
    else headStop k o s
  | none, none, h :: rest =>
    if h.kind = .stop then (s.setSlot k { x with posted := h.join o :: rest }, []) else headStop k o s
  | none, none, [] => headStop k o s

/-- An origin posts an order to a slot (R110, R111, R116). -/
def postOrder (k : Nat) (o : Order) (s : State) : Effect :=
  let x := s.slot k
  if x.completesLocally o.kind then (s, endTasks k none o (.done 0))
  else if o.kind = .stop then placeStop k o s
  else if x.posted.length < 4 then (s.setSlot k { x with posted := x.posted ++ [o] }, [])
  else placeFull k o s

/-- An order to the working slot of a kind; nothing where no slot of the kind is configured. -/
def State.postTo (s : State) (kind : StationKind) (o : OrderKind) (src : Source) : List Task :=
  ((s.working kind).map fun k => Task.post k ⟨o, [src]⟩).toList

/-! ### Cell-wide readings -/

/-- The halting states (R159). -/
def CellState.isHalting : CellState → Bool
  | .starting | .running | .stopping | .parking | .parked | .waking => true
  | .off | .probing | .standby | .halted => false

/-- The index of a cell state (Figure 41). -/
def CellState.index : CellState → Nat
  | .off => 0
  | .probing => 1
  | .standby => 2
  | .starting => 3
  | .running => 4
  | .stopping => 5
  | .halted => 6
  | .parking => 7
  | .parked => 8
  | .waking => 9

/-- The working GUARD slot's last guard state. -/
def State.guardState (s : State) : Option GuardState := (s.workingSlot .guard).bind Slot.guard

def State.guardClosed (s : State) : Bool := s.guardState.any fun g => !g.isOpen

def State.guardLocked (s : State) : Bool := s.guardState.any fun g => !g.isOpen && g.locked

def State.guardOpen (s : State) : Bool := s.guardState.any GuardState.isOpen

/-- The six kinds START and a wake test are READY (R161, R168). -/
def State.kindsReady (s : State) : Bool :=
  [StationKind.xfer, .gauge, .clamp, .knife, .out, .guard].all s.kindReady

/-- The lay of an outstanding permit. -/
def State.permitted (s : State) (n : Nat) : Bool :=
  (decide (s.gate.state = .opened) || decide (s.gate.state = .stroke)) && s.gate.permit.any fun p => decide (p.lay = n)

end Sys2Proof.Machine
end

