-- ==== Sys2Proof/Machine/Flags.lean ====
section
/-! DEFINITION. Flags, counters and notices: the Event Unit's record of each event and its escalation (R142 to R150), the receive
status flags of the ports (R174) and the link statistics (R184). -/

namespace Sys2Proof.Machine

/-! ### Event kinds (Figure 37) -/

/-- The kind's number. -/
def EventKind.index : EventKind → Nat
  | .started => 0
  | .cellState => 1
  | .jobMiss => 2
  | .deliveryReady => 3
  | .deliveryFull => 4
  | .programMark => 5
  | .button => 6
  | .presenceChanged => 7
  | .wear => 8
  | .linkCheck => 9
  | .linkFormat => 10
  | .linkOverrun => 11
  | .ticketLost => 12
  | .strayReport => 13
  | .nullCut => 14
  | .repeatIgnored => 15
  | .fitCapped => 16
  | .badStep => 17
  | .sizeLimit => 18
  | .gaugeLimit => 19
  | .shortCut => 20
  | .fillTimeout => 21
  | .orderRefused => 22
  | .orderTimeout => 23
  | .strokeLapse => 24
  | .programPause => 25
  | .interrupted => 26
  | .stationFault => 27
  | .stationLost => 28
  | .guardOpen => 29
  | .unbiddenStroke => 30
  | .strokeTimeout => 31

/-- The fixed kinds: kinds 0 to 8 and the five named ones (R143). -/
def fixedKind (i : Nat) : Bool :=
  decide (i ≤ 8) || decide (i = 25) || decide (i = 26) || decide (i = 29) || decide (i = 30) || decide (i = 31)

/-- What a kind not of the table would hold; never read for a kind of Figure 37. -/
def KindRecord.blank : KindRecord := { cls := .ignore, notice := false, counter := 0, flag := false, owed := none }

def EventUnit.kindAt (e : EventUnit) (i : Nat) : KindRecord := (e.kinds[i]?).getD .blank

def EventUnit.modifyKind (e : EventUnit) (i : Nat) (f : KindRecord → KindRecord) : EventUnit :=
  { e with kinds := e.kinds.set i (f (e.kindAt i)) }

/-- The kind's class (R143). -/
def State.classOf (s : State) (kind : EventKind) : EventClass := (s.events.kindAt kind.index).cls

/-- The counter rises; but for IGNORE the flag is set, and a notice owed where the flag was clear and the notice bit is on
(R144 to R146, R153). -/
def KindRecord.take (subject : Subject) (detail : Nat) (r : KindRecord) : KindRecord :=
  if r.cls = .ignore then { r with counter := bump16 r.counter }
  else { r with
    counter := bump16 r.counter
    flag := true
    owed := if r.flag = false ∧ r.notice = true then some (subject, detail) else r.owed }

def State.record (s : State) (kind : EventKind) (subject : Subject) (detail : Nat) : State :=
  { s with events := s.events.modifyKind kind.index (KindRecord.take subject detail) }

/-! ### Escalation (R147 to R150) -/

/-- The outstanding permit is withdrawn: gate CLOSED, window stopped, no permit (R104, R105). -/
def Gate.withdraw (g : Gate) : Gate := { g with state := .closed, permit := none, window := none, timer := none }

/-- The lay enters HELD in its phase (R15). -/
def State.hold (s : State) (n : Nat) (cause : HoldCause) : State := s.updateLay n (Lay.hold cause)

/-- A LAY event names a lay (R147, R148, R104). -/
def holdByEvent (n : Nat) (kind : EventKind) (detail : Nat) (s : State) : Effect :=
  match s.lay? n with
  | none => (s, [])
  | some l =>
    if n ∈ s.delivery.finishQueue then (s, [])
    else if s.gate.state = .stroke ∧ s.permitted n then
      ({ s with events := { s.events with deferred := some (s.events.deferred.getD ⟨n, kind, detail⟩) } }, [])
    else if l.state = .held then (s, [])
    else if s.permitted n then
      (({ s with gate := s.gate.withdraw }).updateLay n fun l =>
          Lay.hold (.event kind detail) { l with phase := some .positioning },
        s.postTo .knife .stop (.gate n))
    else (s.hold n (.event kind detail), [])

/-- A CELL event in a halting state: the halt cause is written and the cell enters HALTED (R150, R164). The starting, waking or
parking orders no longer concern Cell Control; the orders in flight are marked as sent before the halt (log 16). The effects follow in a
fixed order (log 49). -/
def haltCell (cause : EventRecord) (s : State) : Effect :=
  let mark := fun (x : Slot) =>
    { x with inFlight := x.inFlight.map fun i => { i with order := i.order.mapSources Source.markHalt } }
  ({ s with
      events := { s.events with haltCause := some cause }
      cell := { s.cell with state := .halted, idle := none, settle := none, lockWait := none, wakeWanted := false }
      slots := (s.slots.map (Slot.mapSources .detach)).map mark },
    [.raise .cellState .none CellState.halted.index, .haltTable, .haltDrop, .haltStop])

/-- A recorded event is escalated by its class. -/
def escalate (cls : EventClass) (kind : EventKind) (subject : Subject) (detail : Nat) (s : State) : Effect :=
  match cls, subject with
  | .lay, .lay n => holdByEvent n kind detail s
  | .cell, _ =>
    if s.cell.state.isHalting then haltCell ⟨kind, subject, detail⟩ s else (s, [])
  | _, _ => (s, [])

/-- The class an event is escalated by: an ORDER_TIMEOUT with no lay subject is taken as an ADVISORY event would be, but for
IGNORE, which escalates nothing either (R115, R147, log 14). -/
def escalationClass (cls : EventClass) (kind : EventKind) (subject : Subject) : EventClass :=
  if kind = .orderTimeout ∧ subject = .none then .advisory else cls

/-- Take an event: counted, flagged, noticed, escalated (R142 to R150). -/
def takeEvent (kind : EventKind) (subject : Subject) (detail : Nat) (s : State) : Effect :=
  escalate (escalationClass (s.classOf kind) kind subject) kind subject detail (s.record kind subject detail)

/-- The deferred hold is taken: the lay enters HELD with the deferred cause in its phase (R148). -/
def State.takeDeferred (s : State) : State :=
  match s.events.deferred with
  | none => s
  | some d => ({ s with events := { s.events with deferred := none } }).hold d.lay (.event d.kind d.detail)

/-! ### Receive status flags and statistics (R174, R184) -/

def RxFlags.mark (f : RxFlag) (r : RxFlags) : RxFlags :=
  match f with
  | .check => { r with check := true, sum := true }
  | .framing => { r with framing := true, sum := true }
  | .length => { r with length := true, sum := true }

def RxFlags.markOverrun (r : RxFlags) : RxFlags := { r with overrun := true, sum := true }

def State.setLink (s : State) (u : LinkUnit) : State := { s with link := u }

/-- A change of the U-port statistics. -/
def State.countU (s : State) (f : UStats → UStats) : State := s.setLink { s.link with uStats := f s.link.uStats }

/-- A change of the S-port statistics. -/
def State.countS (s : State) (f : SStats → SStats) : State := s.setLink { s.link with sStats := f s.link.sStats }

/-- A good frame on a port (R173). -/
def State.goodFrame (s : State) : Port → State
  | .u => s.countU fun t => { t with good := bump32 t.good }
  | .s => s.countS fun t => { t with good := bump32 t.good }

/-- The port as an event's detail (R173). -/
def portDetail : Port → Nat
  | .u => 0
  | .s => 1

/-- A failed check counts as a check failure (1, 2) or a format failure (3 to 6) (Figure 47). -/
def State.countFailure (s : State) (port : Port) (check : Nat) : State :=
  match port, decide (check ≤ 2) with
  | .u, true => s.countU fun t => { t with checkFailures := bump32 t.checkFailures }
  | .u, false => s.countU fun t => { t with formatFailures := bump32 t.formatFailures }
  | .s, true => s.countS fun t => { t with checkFailures := bump32 t.checkFailures }
  | .s, false => s.countS fun t => { t with formatFailures := bump32 t.formatFailures }

/-- The flag a failed check sets on its port. -/
def State.markFlag (s : State) (port : Port) (flag : Option RxFlag) : State :=
  match port, flag with
  | _, none => s
  | .u, some f => s.setLink { s.link with uFlags := s.link.uFlags.mark f }
  | .s, some f => s.setLink { s.link with sFlags := s.link.sFlags.mark f }

/-- A received frame fails a check of R173: discarded, flag set, counted, LINK_CHECK or LINK_FORMAT raised. -/
def rejectFrame (port : Port) (check : Nat) (flag : Option RxFlag) (s : State) : Effect :=
  ((s.markFlag port flag).countFailure port check,
    [.raise (if check ≤ 2 then .linkCheck else .linkFormat) .none (portDetail port)])

end Sys2Proof.Machine
end

