-- ==== Sys2Proof/Machine/Lays.lean ====
section
/-! DEFINITION. The Lay Table and Ticket Intake (spec files 01 and 03): admission, binding, the Fill Request, phase boundaries,
holds, releases, abandons and finishing. -/

namespace Sys2Proof.Machine

/-! ### Finishing (R14, R137, R138) -/

/-- The summary record of a lay (Figure 35). -/
def Lay.summary (n : Nat) (l : Lay) : Summary where
  job := l.job
  pile := l.pile
  lay := n
  abandoned := l.abandoned
  blocksA := l.blocksA
  blocksB := l.blocksB
  waste := l.waste
  strokes := l.strokes
  holds := l.holds
  finalStep := l.step

/-- The lay's record is appended to the Delivery List and freed (R14). -/
def State.freeLay (s : State) (n : Nat) (l : Lay) : State :=
  { s with
    delivery := { s.delivery with records := s.delivery.records ++ [l.summary n] }
    lays := s.lays.set n none
    order := s.order.filter fun m => decide (m ≠ n) }

/-- A lay is tested for finishing; one HELD from FINISHING is ready too (R137, log 53). -/
def finishTest (n : Nat) (s : State) : Effect :=
  match s.lay? n with
  | none => (s, [])
  | some l =>
    if l.eff ≠ .finishing ∨ n ∈ s.delivery.finishQueue ∨ s.delivery.pieces.any (fun p => decide (p.lay = n)) then (s, [])
    else if s.delivery.records.length < 16 ∧ s.delivery.finishQueue = [] then
      (s.freeLay n l, if s.delivery.records = [] then [.raise .deliveryReady (.job l.job) n] else [])
    else
      let queue := s.delivery.finishQueue ++ [n]
      ({ s with delivery := { s.delivery with finishQueue := queue } }, [.raise .deliveryFull (.lay n) queue.length])

/-- A lay that stands in no zone ends its work with outcome ABANDONED (R21, R22). -/
def finishAbandoned (n : Nat) (s : State) : Effect :=
  (s.updateLay n fun l => { l.unhold .finishing with holdWanted := false, abandonWanted := false, abandoned := true, phase := none },
    [.finishTest n])

/-! ### Phase boundaries (R17, R93) -/

/-- Whether a lay that is not HELD stands at a phase boundary. -/
def State.atBoundary (s : State) (n : Nat) (l : Lay) : Bool :=
  match l.state, l.phase with
  | .awaitJob, _ | .queued, _ | .waiting, _ => true
  | .jogging, _ => !s.arbitrating n
  | .cutting, none => true
  | .cutting, some .pushing => false
  | .cutting, some _ => !s.sequencing n && !s.permitted n
  | .moving, _ | .held, _ | .draining, _ | .finishing, _ => false

/-- A LIFT LOWER of the lay is under way: it is MOVING in LIFT with no reservation ahead (R18, R22). -/
def State.lowering (s : State) (n : Nat) (l : Lay) : Bool :=
  decide (l.eff = .moving) && decide (l.zone = some .lift) && !s.reservedFor n

/-- The clamp is down in every case but RELEASED (R88). -/
def State.clampDown (s : State) : Bool := decide (s.seq.clamp ≠ .released)

/-- A lay in JOG, BUFFER or TABLE becomes a draining lay (R23). -/
def drain (n : Nat) (s : State) : State :=
  let onTable := fun (l : Lay) => decide (l.zone = some .table)
  let release := s.clampDown || s.seq.inHand.isSome
  s.updateLay n fun l => { l.unhold .draining with
    holdWanted := false
    abandonWanted := false
    abandoned := true
    runs := none
    phase := if onTable l then (if release then some .releasing else some .pushing) else none
    target := if onTable l then (if release then l.target else some 0) else none }

/-- A lay in LIFT is taken back off the pile top: it is MOVING there, and its LOWER is posted by lowerRule (R22, R73). -/
def lower (n : Nat) (s : State) : State :=
  s.updateLay n fun l => { l.unhold .moving with holdWanted := false, abandonWanted := false }

/-- An abandon is taken (R21 to R23). -/
def takeAbandon (n : Nat) (s : State) : Effect :=
  match (s.lay? n).bind Lay.zone with
  | none => finishAbandoned n s
  | some .lift => (lower n s, [])
  | some _ => (drain n s, [])

/-- The first lay, in lay-number order, with a wanted abandon or hold at a phase boundary. -/
def State.wantedAtBoundary (s : State) : Option Nat :=
  (List.range 8).find? fun n =>
    (s.lay? n).any fun l => (l.abandonWanted || l.holdWanted) && s.atBoundary n l

/-- At a boundary a wanted abandon, else a wanted hold, is taken (R17). -/
def boundaryRule (s : State) : Option Effect :=
  s.wantedAtBoundary.map fun n =>
    if (s.lay? n).any Lay.abandonWanted then takeAbandon n s else (s.hold n .requested, [])

/-- The end of a present or move of a HELD lay whose abandon waits (R21, R23, log 10). -/
def moveEnded (n : Nat) (s : State) : Effect :=
  if (s.lay? n).any fun l => decide (l.state = .held) && l.abandonWanted && decide (l.eff ≠ .moving) then takeAbandon n s
  else (s, [])

/-! ### Binding (R7, R9, R57) -/

/-- The detail of the first size check that fails (R9, Figure 37). -/
def sizeFailure (p : CellParams) (x y h : Nat) : Option Nat :=
  if p.gaugeMax < x then some 1001
  else if p.tableWidth < y then some 1002
  else if p.clampMaxH < h then some 1003
  else none

def State.sizeFailureOf (s : State) (l : Lay) : Option Nat :=
  sizeFailure s.cell.params (l.x.getD 0) (l.y.getD 0) l.height

/-- The lay copies its entry's fields (R7). -/
def Lay.copyJob (e : JobEntry) (l : Lay) : Lay :=
  { l with
    state := .queued
    program := some e.program
    step := some 0
    x := some (l.x.getD e.defaultX)
    y := some (l.y.getD e.defaultY)
    press := some e.press
    mode := some e.mode
    jogTime := some e.jogTime }

/-- Binding takes a lay out of AWAIT_JOB: the copies, the size checks, then the empty-program check (R9). -/
def bindLay (n : Nat) (e : JobEntry) (s : State) : Effect :=
  match s.lay? n with
  | none => (s, [])
  | some l =>
    if l.state ≠ .awaitJob then (s, [])
    else
      let l' := l.copyJob e
      let s' := s.setLay n (some l')
      match s.sizeFailureOf l' with
      | some d => (s', [.raise .sizeLimit (.lay n) d])
      | none =>
        if (s.program e.program).isNone then (s', [.raise .badStep (.lay n) e.program]) else (s', [])

/-- The Job Map's entry for a job. -/
def State.job? (s : State) (job : Nat) : Option JobEntry := s.intake.jobs.find? fun e => decide (e.job = job)

/-- The entry becomes the most recent of the map, in place of any entry of its job (R56). -/
def Intake.toFront (e : JobEntry) (i : Intake) : Intake :=
  { i with jobs := e :: i.jobs.filter fun f => decide (f.job ≠ e.job) }

/-- The map is searched for a lay's job; on a hit the entry becomes most recent and the lay binds (R57, R62). -/
def searchMap (n job : Nat) (s : State) : Effect :=
  match s.job? job with
  | some e => ({ s with intake := s.intake.toFront e }, [.bind n e])
  | none => (s, [])

/-! ### Admission (R3, R54) -/

/-- The lowest-numbered free record. -/
def State.freeRecord (s : State) : Option Nat := s.lays.findIdx? Option.isNone

/-- A record at its admission values (Figure 7). -/
def admitted (t : Ticket) : Lay where
  state := .awaitJob
  job := t.job
  pile := t.pile
  program := none
  step := none
  runs := none
  x := t.x
  y := t.y
  height := t.height
  turns := 0
  face := t.face.getD .up
  zone := none
  phase := none
  target := none
  press := none
  mode := none
  jogTime := none
  zero := false
  short := false
  fitq := none
  fitr := none
  strokes := 0
  blocksA := 0
  blocksB := 0
  waste := 0
  holds := 0
  cause := none
  heldFrom := none
  holdWanted := false
  abandonWanted := false
  abandoned := false

/-- Cell Control observes an admission: it wants a wake in PARKING and wakes in PARKED (R54, R167). -/
def admissionWake (s : State) : Effect :=
  match s.cell.state with
  | .parking => ({ s with cell := { s.cell with wakeWanted := true } }, [])
  | .parked => (s, [.enter .waking])
  | _ => (s, [])

/-- The oldest ticket is admitted into the lowest-numbered free record; nothing where there is no ticket or no free record (R54). In PARKED
the binding comes before the entry into WAKING, which a halt by the binding's event forestalls (R151, log 42). -/
def admitTicket (s : State) : Effect :=
  match s.intake.tickets, s.freeRecord with
  | t :: rest, some n =>
    let s1 := { s with
      intake := { s.intake with tickets := rest }
      lays := s.lays.set n (some (admitted t))
      order := s.order ++ [n] }
    let found := searchMap n t.job s1
    let woken := admissionWake found.1
    (woken.1, found.2 ++ woken.2)
  | _, _ => (s, [])

/-- A good ticket joins the queue, is admitted at once where the queue was empty and a record is free, or is lost (R53, R54). -/
def takeTicket (t : Ticket) (s : State) : Effect :=
  if s.intake.tickets = [] then
    let s1 := { s with intake := { s.intake with tickets := [t] } }
    if s.freeRecord.isSome then admitTicket s1 else (s1, [])
  else if s.intake.tickets.length < 4 then
    ({ s with intake := { s.intake with tickets := s.intake.tickets ++ [t] } }, [])
  else (s, [.raise .ticketLost (.job t.job) t.pile])

/-! ### The Fill Request (R63 to R66) -/

/-- The lays in AWAIT_JOB, oldest first. -/
def State.awaitingJob (s : State) : List Nat :=
  s.order.filter fun n => (s.lay? n).any fun l => decide (l.state = .awaitJob)

/-- The lays in AWAIT_JOB with a job, oldest first. -/
def State.awaitingJobOf (s : State) (job : Nat) : List Nat :=
  s.awaitingJob.filter fun n => (s.lay? n).any fun l => decide (l.job = job)

/-- The request ends when no AWAIT_JOB lay has its job, and starts for the oldest AWAIT_JOB lay's job where it is absent. -/
def fillRule (s : State) : Option Effect :=
  match s.intake.fill, s.awaitingJob with
  | some f, _ =>
    if s.awaitingJobOf f.job = [] then some ({ s with intake := { s.intake with fill := none } }, []) else none
  | none, [] => none
  | none, n :: _ =>
    let job := ((s.lay? n).map Lay.job).getD 0
    some ({ s with intake := { s.intake with fill := some ⟨job, s.cell.params.fillTime⟩ } }, [.raise .jobMiss (.job job) n])

/-- The fill timer runs out: FILL_TIMEOUT for each AWAIT_JOB lay of the job, oldest first, then the request ends (R65). -/
def fillExpiry (s : State) : Effect :=
  match s.intake.fill with
  | none => (s, [])
  | some f => (s, (s.awaitingJobOf f.job).map (fun n => .raise .fillTimeout (.lay n) f.job) ++ [.fillEnds])

def fillEnds (s : State) : Effect := ({ s with intake := { s.intake with fill := none } }, [])

/-! ### RELEASE (R19, R20) -/

/-- The check a RELEASE repeats: the event it raises again where it fails (R20). -/
def State.recheck (s : State) (l : Lay) : Option (EventKind × Nat) :=
  match l.cause, l.heldFrom with
  | some (.event .sizeLimit _), _ => (s.sizeFailureOf l).map fun d => (.sizeLimit, d)
  | some (.event .badStep _), some .queued =>
    match l.program with
    | some p => if (s.program p).isNone then some (.badStep, p) else none
    | none => none
  | _, _ => none

/-- The lay leaves HELD for its held-from state and goes on; after PROGRAM_PAUSE it stands past the PAUSE (R19, R20). -/
def releaseLay (n : Nat) (s : State) : Effect :=
  match s.lay? n with
  | none => (s, [])
  | some l =>
    let paused := match l.cause with
      | some (.event .programPause _) => true
      | _ => false
    let l' := (if paused then l.advance else l).unhold l.eff
    let s' := s.setLay n (some l')
    if l'.state = .awaitJob then searchMap n l.job s' else (s', [])

/-- A RELEASE of a HELD lay: the re-check, then the release or the event raised again (R19, R20). -/
def startRelease (n : Nat) (l : Lay) (s : State) : Effect :=
  match s.recheck l with
  | none => (s, [.release n])
  | some (kind, d) => (s, [.raise kind (.lay n) d, .recheckFailed n kind d])

/-- A failed re-check: held again with the cause rewritten where the event's class holds a lay, else released (R20). -/
def recheckFailed (n : Nat) (kind : EventKind) (detail : Nat) (s : State) : Effect :=
  if s.classOf kind = .lay then
    (s.updateLay n fun l =>
      if l.state = .held then { l with cause := some (.event kind detail), holds := bump16 l.holds } else l, [])
  else (s, [.release n])

end Sys2Proof.Machine
end

