-- ==== Sys2Proof/Machine/Steps.lean ====
section
/-! DEFINITION. The Step Evaluator (spec file 02): the runs check, the immediate steps, the checks of cut and turn steps, the commit
of a cut and of a turn. -/

namespace Sys2Proof.Machine

/-! ### Checks (R41 to R46) -/

/-- The gauge check (R43). -/
def gaugeOk (p : CellParams) (g : Nat) : Bool := decide (1 ≤ g) && decide (p.gaugeMin ≤ g) && decide (g ≤ p.gaugeMax)

/-- What the start of a cut step finds (R41, R42). -/
inductive CutCheck where
  | cut (g : Nat)
  | shortCut
  | nullCut
  | gaugeLimit
  | notACut
  deriving DecidableEq, Repr

/-- A TRIM or STRIP of width w on a lay of extent x (R41). -/
def checkWidth (p : CellParams) (x w : Nat) : CutCheck :=
  if x ≤ w then .shortCut else if gaugeOk p (x - w) then .cut (x - w) else .gaugeLimit

/-- A CUT_AT g on a lay of extent x (R42). -/
def checkPosition (p : CellParams) (x g : Nat) : CutCheck :=
  if x ≤ g then .nullCut else if gaugeOk p g then .cut g else .gaugeLimit

/-- The start-of-cut checks of a step. -/
def checkCut (p : CellParams) (x : Nat) : Step → CutCheck
  | .trim w | .strip w => checkWidth p x w
  | .cutAt g _ => checkPosition p x g
  | _ => .notACut

/-- A TURN of an odd number of quarter turns: the turned lay fits (R46). -/
def turnOk (p : CellParams) (x y q : Nat) : Bool :=
  decide (q = 2) || (decide (x ≤ p.tableWidth) && decide (y ≤ p.gaugeMax))

/-! ### FIT (R38) -/

/-- The count of a FIT before the cap. -/
def fitCount (x p : Nat) : Nat := if x / p = 0 then 0 else if x % p = 0 then x / p - 1 else x / p

def Lay.fit (p : Nat) (l : Lay) : Lay :=
  let x := l.x.getD 0
  { l with
    runs := some (min 256 (fitCount x p))
    zero := decide (x / p ≠ 0) && decide (x % p = 0)
    short := decide (x / p = 0)
    fitq := some (x / p)
    fitr := some (x % p) }

/-! ### Step start (R34, R35) -/

/-- The lay passes to the Cut Cycle Sequencer in a phase (R89, R91, R92). -/
def Lay.beginPhase (phase : Phase) (target : Option Nat) (l : Lay) : Lay := { l with phase := some phase, target := target }

/-- The lay is at a step start (R34). -/
def Lay.toStepStart (l : Lay) : Lay := { l with phase := none, target := none }

/-- A check's event gives the step up where it did not hold the lay (R44). -/
def giveUp (n : Nat) (s : State) : Effect :=
  if s.unheld n then (s.updateLay n fun l => { l.toStepStart.advance with runs := none }, []) else (s, [])

/-- A failed check raises its event with the step index as detail; no cut or turn is made (R41, R44, R46). -/
def checkFails (n : Nat) (kind : EventKind) (s : State) : Effect :=
  (s.updateLay n Lay.toStepStart, [.raise kind (.lay n) (s.stepDetail n), .giveUp n])

/-- A cut step is executed (R41, R42). -/
def execCut (n : Nat) (st : Step) (x : Nat) (s : State) : Effect :=
  match checkCut s.cell.params x st with
  | .cut g => (s.updateLay n (Lay.beginPhase .positioning (some g)), [])
  | .shortCut => checkFails n .shortCut s
  | .gaugeLimit => checkFails n .gaugeLimit s
  | .nullCut => (s.updateLay n Lay.advance, [.raise .nullCut (.lay n) (s.stepDetail n)])
  | .notACut => (s, [])

/-- The step executes once (R37 to R42, R46 to R48). -/
def execStep (n : Nat) (l : Lay) (st : Step) (s : State) : Effect :=
  let d := l.step.getD 0
  match st with
  | .trim _ | .strip _ | .cutAt _ _ => execCut n st (l.x.getD 0) s
  | .repeatNext c => (s.updateLay n fun l => { l.advance with runs := some (c + 1) }, [])
  | .fit p =>
    (s.updateLay n fun l => (l.fit p).advance,
      if 256 < fitCount (l.x.getD 0) p then [.raise .fitCapped (.lay n) d] else [])
  | .press level => (s.updateLay n fun l => { l.advance with press := some level }, [])
  | .note k => (s.updateLay n Lay.advance, [.raise .programMark (.lay n) k])
  | .pause => (s, [.raise .programPause (.lay n) d])
  | .turn q =>
    if turnOk s.cell.params (l.x.getD 0) (l.y.getD 0) q then (s.updateLay n (Lay.beginPhase .turning none), [])
    else checkFails n .sizeLimit s
  | .invert => (s.updateLay n (Lay.beginPhase .turning none), [])
  | .endProgram _ => (s.updateLay n (Lay.beginPhase .pushing (some 0)), [])

/-- TRIM and STRIP are repeatable (R28). -/
def Step.repeatable : Step → Bool
  | .trim _ | .strip _ => true
  | _ => false

def Step.isEnd : Step → Bool
  | .endProgram _ => true
  | _ => false

/-- The step executes once in the event of its REPEAT_IGNORED, where the lay still stands at its step start: not held by that event, whose
class may be CELL (R35, R150, log 35). -/
def execUnheld (n : Nat) (s : State) : Effect :=
  match s.lay? n with
  | none => (s, [])
  | some l =>
    if l.state = .cutting ∧ l.phase = none then
      match s.stepOf l with
      | some st => execStep n l st s
      | none => (s, [])
    else (s, [])

/-- A step is evaluated: the runs check, then the step itself. A count that meets END or a step that is not repeatable is discarded; the step
executes after the event that says so (R35). -/
def evalStep (n : Nat) (l : Lay) (st : Step) (s : State) : Effect :=
  match l.runs with
  | none => execStep n l st s
  | some 0 =>
    if st.isEnd then (s.updateLay n fun l => { l with runs := none }, [.raise .repeatIgnored (.lay n) 0, .execUnheld n])
    else (s.updateLay n fun l => { l.advance with runs := none }, [])
  | some (r + 1) =>
    if st.repeatable then execStep n l st s
    else (s.updateLay n fun l => { l with runs := none }, [.raise .repeatIgnored (.lay n) (r + 1), .execUnheld n])

/-- The lay at a step start on the TABLE, in RUNNING (R34). A step that is not there raises BAD_STEP (log 33). -/
def stepRule (s : State) : Option Effect :=
  match s.zones.table.occupant with
  | none => none
  | some n =>
    match s.lay? n with
    | none => none
    | some l =>
      if l.state = .cutting ∧ l.phase = none ∧ s.cell.state = .running then
        match s.stepOf l with
        | some st => some (evalStep n l st s)
        | none => some (s, [.raise .badStep (.lay n) (l.program.getD 0), .drainUnheld n])
      else none

/-- Where BAD_STEP did not hold the lay it drains (R34). -/
def drainUnheld (n : Nat) (s : State) : Effect := if s.unheld n then (drain n s, []) else (s, [])

/-! ### Commits (R36, R45 to R47) -/

/-- `runs` and `step` after a commit (R36). -/
def Lay.countRun (l : Lay) : Lay :=
  match l.runs with
  | some (r + 2) => { l with runs := some (r + 1) }
  | _ => { l.advance with runs := none }

/-- The class of a cut step's front piece (R45). -/
def Step.pieceClass : Step → PieceClass
  | .strip _ => .block
  | .cutAt _ c => c
  | _ => .waste

/-- The front piece a commit makes (R45). -/
def frontPiece (n : Nat) (l : Lay) (st : Option Step) : PieceInHand where
  lay := n
  cls := (st.map Step.pieceClass).getD .waste
  depth := l.x.getD 0 - l.target.getD 0
  width := l.y.getD 0

/-- The lay after its cut committed (R45, R90). -/
def Lay.commitCut (l : Lay) : Lay :=
  { l.countRun with x := l.target.or l.x, strokes := bump16 l.strokes, phase := some .releasing }

def flipFace : Face → Face
  | .up => .down
  | .down => .up

/-- The lay turned by q quarter turns (R46). -/
def Lay.rotate (q : Nat) (l : Lay) : Lay :=
  let l' := { l with turns := (l.turns + q) % 4 }
  if q % 2 = 1 then { l' with x := l.y, y := l.x } else l'

/-- The lay inverted (R47). -/
def Lay.invertFace (l : Lay) : Lay := { l with face := flipFace l.face }

/-- The class END gives the remainder (R48); WASTE for a draining lay (R131). -/
def State.remainderClass (s : State) (l : Lay) : PieceClass :=
  if l.abandoned then .waste
  else match s.stepOf l with
    | some (.endProgram .block) => .block
    | some (.endProgram .waste) => .waste
    | some (.endProgram .auto) => if l.zero then .block else .waste
    | _ => .waste

end Sys2Proof.Machine
end

