-- ==== Sys2Proof/Machine/Delivery.lean ====
section
/-! DEFINITION. The Delivery Unit (spec file 07): the handing over of a piece, DELIVERs and their ends, TAKE_DELIVERY. -/

namespace Sys2Proof.Machine

/-- The destination of a piece, and whether it flips the toggle (R132). -/
def destinationFor (cls : PieceClass) (mode : DeliveryMode) (toggleB : Bool) : Destination × Bool :=
  match cls, mode with
  | .waste, _ => (.chute, toggleB)
  | .block, .beltA => (.beltA, toggleB)
  | .block, .beltB => (.beltB, toggleB)
  | .block, .alternate => (if toggleB then .beltB else .beltA, !toggleB)

/-- A piece is handed over and joins the piece list's tail, under the next number (R131, R132, log 47). -/
def State.handOver (s : State) (n : Nat) (cls : PieceClass) (depth width : Nat) (kind : PieceKind) : State :=
  let mode := ((s.lay? n).bind Lay.mode).getD .beltA
  let d := destinationFor cls mode s.delivery.toggleB
  { s with delivery := { s.delivery with
      toggleB := d.2
      pieces := s.delivery.pieces ++ [⟨n, cls, depth, width, kind, d.1, false, false, s.delivery.nextPiece⟩]
      nextPiece := s.delivery.nextPiece + 1 } }

/-- The piece in hand, if any, is handed over (R90). -/
def State.handOverInHand (s : State) : State :=
  match s.seq.inHand with
  | none => s
  | some p => { (s.handOver p.lay p.cls p.depth p.width .cut) with seq := { s.seq with inHand := none } }

/-- The first piece of the list that satisfies p, changed by f; f answers none to remove it. -/
def modifyFirst (p : Piece → Bool) (f : Piece → Option Piece) : List Piece → List Piece
  | [] => []
  | x :: rest => if p x then (f x).toList ++ rest else x :: modifyFirst p f rest

/-- An UNPOSTED piece that may be posted: its lay is not HELD, and it was not left UNPOSTED in a STOPPING since the cell last
entered RUNNING (R133, R136, log 19). -/
def State.postable (s : State) (p : Piece) : Bool :=
  !p.posted && !p.late && s.unheld p.lay

/-- The oldest postable piece is posted in RUNNING or STOPPING (R133). -/
def deliverRule (s : State) : Option Effect :=
  if s.cell.state = .running ∨ s.cell.state = .stopping then
    match s.delivery.pieces.find? s.postable, s.working .out with
    | some p, some k =>
      some ({ s with delivery := { s.delivery with
                pieces := modifyFirst s.postable (fun q => some { q with posted := true }) s.delivery.pieces } },
            [.post k ⟨.deliver p.destination, [.delivery p.lay p.number]⟩])
    | _, _ => none
  else none

/-- Whether a DELIVER that carries the piece of this number carries `p` (log 47). -/
def carries (number : Nat) (p : Piece) : Bool := decide (p.number = number)

/-- The lay's counter rises at a DELIVER's DONE (R134). -/
def Lay.countPiece (d : Destination) (l : Lay) : Lay :=
  match d with
  | .beltA => { l with blocksA := bump16 l.blocksA }
  | .beltB => { l with blocksB := bump16 l.blocksB }
  | .chute => { l with waste := bump16 l.waste }

/-- The piece is UNPOSTED again, its destination kept; in STOPPING it then waits for RUNNING (R135, R136). -/
def State.unpost (s : State) (number : Nat) : State :=
  let late := decide (s.cell.state = .stopping)
  { s with delivery := { s.delivery with
      pieces := modifyFirst (carries number) (fun q => some { q with posted := false, late := late }) s.delivery.pieces } }

/-- The DELIVER of the piece of this number, a piece of lay `n`, ends (R134 to R136). -/
def deliverEnds (n number : Nat) (how : End) (s : State) : Effect :=
  match how with
  | .done _ =>
    match s.delivery.pieces.find? (carries number) with
    | none => (s, [])
    | some p =>
      (({ s with delivery := { s.delivery with pieces := modifyFirst (carries number) (fun _ => none) s.delivery.pieces } }).updateLay n
          (Lay.countPiece p.destination), [.finishTest n])
  | .refused .aborted => (s.unpost number, [])
  | .refused r => (s.unpost number, [.raise .orderRefused (.lay n) (reasonIndex r)])
  | .timedOut | .dropped | .lost => (s.unpost number, [])

/-- The oldest lay of the finish queue is appended and freed, now that a record was taken (R139). -/
def State.finishQueued (s : State) : State :=
  match s.delivery.finishQueue with
  | [] => s
  | n :: rest =>
    let s' := { s with delivery := { s.delivery with finishQueue := rest } }
    match s.lay? n with
    | some l => s'.freeLay n l
    | none => s'

end Sys2Proof.Machine
end

