-- ==== Sys2Proof/Machine/Arbiter.lean ====
section
/-! DEFINITION. The Transfer Arbiter (spec file 04): presents, move requests and grants, jogs, and the ends of its orders. -/

namespace Sys2Proof.Machine

/-! ### Presents (R10, R71) -/

/-- The lay is unpresented (R10). -/
def Lay.unpresented (l : Lay) : Bool :=
  l.zone.isNone && (decide (l.eff = .awaitJob) || decide (l.eff = .queued) || decide (l.eff = .moving))

/-- The oldest unpresented lay (R10). -/
def State.headUnpresented (s : State) : Option Nat :=
  s.order.find? fun n => (s.lay? n).any Lay.unpresented

/-- The head unpresented lay is presented (R71). -/
def presentRule (s : State) : Option Effect :=
  match s.headUnpresented, s.working .lift with
  | some n, some k =>
    match s.lay? n with
    | some l =>
      if s.cell.state = .running ∧ s.zones.lift.isFree ∧ l.state = .queued ∧ l.holdWanted = false ∧ (s.slot k).state = .ready then
        some ((s.setZone .lift ⟨none, some n⟩).updateLay n fun l => { l with state := .moving },
          [.post k ⟨.present l.height, [.arbiter n]⟩])
      else none
    | none => none
  | _, _ => none

/-! ### Move requests and the mover (R74 to R76) -/

/-- The three moves, downstream first (Figure 21). -/
def moves : List (ZoneId × ZoneId) := [(.buffer, .table), (.jog, .buffer), (.lift, .jog)]

/-- The lay may be the source of a move request (R74). -/
def State.mayMove (s : State) (n : Nat) (l : Lay) : Bool :=
  (decide (l.state = .waiting) || (decide (l.state = .draining) && !s.reservedFor n)) && !l.holdWanted && !l.abandonWanted

/-- The lay of a standing move request (R74). -/
def State.requestLay (s : State) (m : ZoneId × ZoneId) : Option Nat :=
  if s.cell.state = .running ∧ (s.zone m.2).isFree then
    (s.zone m.1).occupant.filter fun n => (s.lay? n).any (s.mayMove n)
  else none

/-- No order in flight and none posted. -/
def Slot.isQuiet (x : Slot) : Bool := x.inFlight.isNone && x.posted.isEmpty

/-- The mover is free (R75). -/
def State.moverFree (s : State) : Bool :=
  (s.workingSlot .xfer).any (fun x => decide (x.state = .ready) && x.isQuiet) &&
    decide (s.gate.state ≠ .opened) && decide (s.gate.state ≠ .stroke)

/-- The request that is granted: the first that stands (R75). -/
def State.dueMove (s : State) : Option ((ZoneId × ZoneId) × Nat) :=
  if s.moverFree then moves.findSome? fun m => (s.requestLay m).map fun n => (m, n) else none

/-- A grant: the destination is reserved, the lay is MOVING, MOVE_LAY is posted (R76). -/
def grantMove (m : ZoneId × ZoneId) (n : Nat) (s : State) : Effect :=
  ((s.setZone m.2 ⟨none, some n⟩).updateLay n fun l => if l.state = .draining then l else { l with state := .moving },
    s.postTo .xfer (.moveLay m.1 m.2) (.arbiter n))

/-! ### Jogs (R80) -/

/-- The lay is JOGGING with no jog outstanding and nothing wanted of it. -/
def State.jogWaits (s : State) (n : Nat) : Bool :=
  (s.lay? n).any fun l => decide (l.state = .jogging) && !l.holdWanted && !l.abandonWanted && !s.arbitrating n

/-- A LOWER may be posted: R84 bars the arbiter's orders in the other states (log 8). -/
def CellState.takesLower : CellState → Bool
  | .running | .stopping | .halted => true
  | .off | .probing | .standby | .starting | .parking | .parked | .waking => false

/-- The lay in LIFT whose abandon was taken and whose LOWER is not yet posted (R22). -/
def State.lowerWaits (s : State) : Option Nat :=
  s.zones.lift.occupant.filter fun n =>
    (s.lay? n).any fun l => decide (l.state = .moving) && s.lowering n l && !s.arbitrating n

/-- LOWER is posted once the cell state allows it (R73, R84, log 8); without a LIFT slot the lay is WAITING again (log 9). -/
def lowerRule (s : State) : Option Effect :=
  match s.lowerWaits with
  | none => none
  | some n =>
    match s.working .lift with
    | none => some (s.updateLay n fun l => { l with state := .waiting }, [])
    | some k => if s.cell.state.takesLower then some (s, [.post k ⟨.lower, [.arbiter n]⟩]) else none

/-- A JOGGING lay is jogged in RUNNING, or its jog is passed over (R80). One that stands JOGGING when LOAD_SLOT takes the last JOG slot
away is passed over in that event (log 36). -/
def jogRule (s : State) : Option Effect :=
  match (s.zones.jog.occupant).filter s.jogWaits with
  | none => none
  | some n =>
    let ms := ((s.lay? n).bind Lay.jogTime).getD 0
    match s.working .jog with
    | none => some (s.updateLay n fun l => { l with state := .waiting }, [])
    | some k =>
      if ms = 0 then some (s.updateLay n fun l => { l with state := .waiting }, [])
      else if s.cell.state = .running then some (s, [.post k ⟨.jog ms, [.arbiter n]⟩])
      else none

/-! ### Ends of the arbiter's orders -/

/-- ORDER_REFUSED for a refusal other than ABORTED (R72, R73, R78, R80, R94). -/
def refusalTasks (n : Nat) : End → List Task
  | .refused .aborted => []
  | .refused r => [.raise .orderRefused (.lay n) (reasonIndex r)]
  | .done _ | .timedOut | .dropped | .lost => []

def End.isDone : End → Bool
  | .done _ => true
  | _ => false

/-- Answered REFUSED ABORTED, dropped or lost (R113). -/
def End.isAborted : End → Bool
  | .refused .aborted | .dropped | .lost => true
  | _ => false

/-- The end of a present (R72). -/
def presentEnds (n : Nat) (how : End) (s : State) : Effect :=
  if how.isDone then ((s.occupy .lift n).updateLay n (Lay.setEff .waiting), [])
  else ((s.unreserve .lift).updateLay n (Lay.setEff .queued), refusalTasks n how)

/-- The end of a LOWER (R22, R73). -/
def lowerEnds (n : Nat) (how : End) (s : State) : Effect :=
  if how.isDone then finishAbandoned n (s.vacate .lift n)
  else (s.updateLay n (Lay.setEff .waiting), refusalTasks n how)

/-- Where a lay stands after a move DONE (R12, R77, R82). -/
def Lay.arrive (z : ZoneId) (l : Lay) : Lay :=
  match z with
  | .jog => if l.eff = .draining then l else l.setEff .jogging
  | .table =>
    if l.eff = .draining then l.beginPhase .pushing (some 0)
    else (l.setEff .cutting).toStepStart
  | .lift | .buffer => if l.eff = .draining then l else l.setEff .waiting

/-- The detail of INTERRUPTED for an aborted move, by its destination (Figure 37). -/
def moveDetail (z : ZoneId) : Nat := 64 + zoneIndex z

/-- The end of a MOVE_LAY (R77 to R79). -/
def moveLayEnds (a b : ZoneId) (n : Nat) (how : End) (s : State) : Effect :=
  if how.isDone then (((s.vacate a n).occupy b n).updateLay n (Lay.arrive b), [])
  else
    let s' := (s.unreserve b).updateLay n fun l => if l.eff = .draining then l else l.setEff .waiting
    if how.isAborted then (s', [.raise .interrupted (.lay n) (moveDetail b)]) else (s', refusalTasks n how)

/-- The end of a jog (R80). -/
def jogEnds (n : Nat) (how : End) (s : State) : Effect :=
  if how.isDone then (s.updateLay n fun l => if l.eff = .jogging then l.setEff .waiting else l, [])
  else (s, refusalTasks n how)

/-- An order of the arbiter ends. -/
def arbiterEnds (kind : OrderKind) (n : Nat) (how : End) (s : State) : Effect :=
  match kind with
  | .present _ => presentEnds n how s
  | .lower => lowerEnds n how s
  | .moveLay a b => moveLayEnds a b n how s
  | .jog _ => jogEnds n how s
  | _ => (s, [])

end Sys2Proof.Machine
end

