-- ==== Sys2Proof/Machine/Gate.lean ====
section
/-! DEFINITION. The Stroke Gate (spec file 05): permits, the knife's reports against them, failed and unbidden strokes, the commit
of a cut. -/

namespace Sys2Proof.Machine

/-! ### Permits (R97) -/

/-- The lay on the TABLE that waits for a permit: in STROKING with the gate CLOSED (R97). -/
def State.strokingLay (s : State) : Option Nat :=
  if s.gate.state = .closed then
    s.zones.table.occupant.filter fun n =>
      (s.lay? n).any fun l => decide (l.eff = .cutting) && decide (l.phase = some .stroking)
  else none

/-- The OUT slot has no DELIVER in flight, posted or waiting (R97). -/
def State.outClear (s : State) : Bool :=
  (s.workingSlot .out).all fun x => x.orders.all fun o => match o.kind with
    | .deliver _ => false
    | _ => true

/-- The clamp record is CLAMPED for the lay. -/
def State.clampedFor (s : State) (n : Nat) : Bool :=
  match s.seq.clamp with
  | .clamped m _ => decide (m = n)
  | _ => false

/-- The permit conditions, in the order of R97. -/
def State.permitConditions (s : State) (n : Nat) (l : Lay) : List Bool :=
  [ s.clampedFor n,
    s.guardLocked,
    (s.workingSlot .xfer).all Slot.isQuiet,
    decide (s.seq.gauge = .known (l.target.getD 0) true),
    (s.workingSlot .knife).any fun x => decide (x.state = .ready) && x.isQuiet && decide (x.position = some .top),
    s.outClear,
    decide (l.state ≠ .held) && !l.holdWanted && !l.abandonWanted,
    decide (s.cell.state = .running) ]

/-- The lay to which a permit is due. -/
def State.duePermit (s : State) : Option Nat :=
  s.strokingLay.filter fun n => (s.lay? n).any fun l => (s.permitConditions n l).all id

/-- A permit is issued: STROKE is sent at once with the slot's next tag (R97). -/
def issuePermit (n : Nat) (s : State) : Effect :=
  match s.working .knife with
  | none => (s, [])
  | some k =>
    let x := s.slot k
    let s' := s.sendOrder k ⟨.stroke, [.gate n]⟩ x.timeoutOf
    ({ s' with gate := { s.gate with
        state := .opened
        permit := some ⟨n, s.stepDetail n, x.nextTag⟩
        permits := bump32 s.gate.permits
        window := some s.cell.params.permitWindow
        timer := none } }, [])

/-- A permit or a grant of the mover that is due; where both are, either may be first: a free choice (R75, R97, log 5). -/
def permitOrGrantRule (s : State) : Option Effect :=
  match s.duePermit, s.dueMove with
  | some n, none => some (issuePermit n s)
  | none, some (m, n) => some (grantMove m n s)
  | some p, some (m, n) =>
    let s' := { s with choices := s.choices + 1 }
    some (if Config.permitFirst s.choices then issuePermit p s' else grantMove m n s')
  | none, none => none

/-! ### Failed and unbidden strokes (R101, R102) -/

/-- The KNIFE slot as a subject (log 25). -/
def State.knifeSubject (s : State) : Subject := .slot ((s.working .knife).getD 0)

/-- The gate enters LOCKED_OUT, or stays in it: no permit, no timer. -/
def Gate.lockOut (g : Gate) : Gate := { g with state := .lockedOut, permit := none, window := none, timer := none }

/-- The gate locks out; the permit's lay, if any, is put back to POSITIONING, a deferred hold of it is taken, and INTERRUPTED is
raised for it (R101, R102, R148). -/
def lockOutGate (s : State) : Effect :=
  match s.gate.permit with
  | none => ({ s with gate := s.gate.lockOut }, [])
  | some p =>
    let s' := ({ s with gate := s.gate.lockOut }).updateLay p.lay fun l => { l with phase := some .positioning }
    (s'.takeDeferred, [.raise .interrupted (.lay p.lay) p.step])

/-- The stroke fails (R101). -/
def strokeFails (detail : Nat) (s : State) : Effect :=
  let r := lockOutGate s
  (r.1, r.2 ++ [.raise .strokeTimeout s.knifeSubject detail, .lockOutOrder])

/-- An unbidden stroke (R102). ENABLE(off) is posted again while the gate stays LOCKED_OUT, in every cell state (log 37). -/
def unbidden (detail : Nat) (s : State) : Effect :=
  let r := lockOutGate s
  (r.1, r.2 ++ [.raise .unbiddenStroke s.knifeSubject detail, .lockOutOrder])

/-- KNIFE ENABLE(off) with origin CELL (R102). -/
def lockOutOrder (s : State) : Effect := (s, s.postTo .knife (.enable false) (.cell false))

/-! ### The stroke's reports (R98, R99) -/

/-- A STROKE_BEGIN reaches the gate (R98). -/
def strokeBegins (k tag : Nat) (s : State) : Effect :=
  if s.gate.state = .opened ∧ s.working .knife = some k ∧ (s.gate.permit.any fun p => decide (p.tag = tag)) then
    ({ s with gate := { s.gate with state := .stroke, window := none, timer := some ⟨0, s.cell.params.strokeTime⟩ } }, [])
  else unbidden tag s

/-- The totals at a completed stroke (R99, R103). -/
def Gate.complete (limit : Nat) (g : Gate) : Gate :=
  let ms := min 65535 ((g.timer.map StrokeTimer.elapsed).getD 0)
  let wear := bump32 g.wear
  { g with
    state := .closed
    permit := none
    window := none
    timer := none
    strokes := bump32 g.strokes
    wear := wear
    wearReported := g.wearReported || (decide (limit ≠ 0) && decide (limit ≤ wear))
    lastStroke := some ms
    longestStroke := some (max ms (g.longestStroke.getD 0)) }

/-- The cut of a lay commits: its piece is in hand, its record takes the commit (R45, R90); its RELEASING follows on in STOPPING too (R95,
log 18). -/
def commitCut (n : Nat) (s : State) : State :=
  match s.lay? n with
  | none => s
  | some l =>
    { s.setLay n (some l.commitCut) with
      seq := { s.seq with inHand := some (frontPiece n l (s.stepOf l)), begun := some .releasing } }

/-- The knife's DONE under the permit (R99): totals, commit, deferred hold, then WEAR. -/
def strokeDone (s : State) : Effect :=
  let g := s.gate.complete s.cell.params.knifeWearLimit
  let worn := g.wearReported && !s.gate.wearReported
  let s' := { s with gate := g }
  let s'' := match s.gate.permit with
    | some p => (commitCut p.lay s').takeDeferred
    | none => s'
  (s'', if worn then [.raise .wear s.knifeSubject 0] else [])

/-- A STROKE order ends while the gate is OPEN (R100). -/
def strokeEndsOpen (n tag : Nat) (how : End) (s : State) : Effect :=
  match how with
  | .done _ => unbidden (tag + 256) s
  | _ => ({ s with gate := s.gate.withdraw }, refusalTasks n how)

/-- A STROKE order ends while the gate is in STROKE (R99, R101). -/
def strokeEndsStroke (how : End) (s : State) : Effect :=
  match how with
  | .done _ => strokeDone s
  | .refused _ => strokeFails 1 s
  | .timedOut => strokeFails 2 s
  | .dropped | .lost => strokeFails 3 s

/-- The order that ended in slot k is the STROKE of the permit: it stood in the working KNIFE slot and had the permit's tag (R96, R99). -/
def State.strokeOfPermit (s : State) (k : Nat) (tag : Option Nat) : Bool :=
  decide (s.working .knife = some k) && s.gate.permit.any fun p => decide (tag = some p.tag)

/-- An order of the gate ends (R99 to R102, R106). A STOP of the gate changes nothing there. The DONE of a STROKE that is no permit's, as of one
in flight since a halt, is an unbidden stroke whatever the gate's present state; any other end of it changes nothing (log 46). -/
def gateEnds (kind : OrderKind) (k n : Nat) (tag : Option Nat) (how : End) (s : State) : Effect :=
  if kind ≠ .stroke then (s, [])
  else match s.gate.state, s.strokeOfPermit k tag with
    | .opened, true => strokeEndsOpen n (tag.getD 0) how s
    | .stroke, true => strokeEndsStroke how s
    | _, _ => if how.isDone then unbidden (tag.getD 0 + 256) s else (s, [])

/-- The permit window runs out: the permit lapses (R100). -/
def windowExpiry (s : State) : Effect :=
  match s.gate.state, s.gate.permit with
  | .opened, some p =>
    ({ s with gate := s.gate.withdraw },
      s.postTo .knife .stop (.gate p.lay) ++ [.raise .strokeLapse (.lay p.lay) p.step])
  | _, _ => (s, [])

/-- The stroke timer runs out (R101). -/
def strokeExpiry (s : State) : Effect :=
  if s.gate.state = .stroke then strokeFails 0 s else (s, [])

end Sys2Proof.Machine
end

