-- ==== Sys2Proof/Machine/CutCycle.lean ====
section
/-! DEFINITION. The Cut Cycle Sequencer (spec file 05): the phases, their orders and the ends of those orders; winding back in
STOPPING; the release of the TABLE. -/

namespace Sys2Proof.Machine

/-! ### Posting -/

/-- A sequencer order of the lay to the working slot of a kind (R87). -/
def State.sequence (s : State) (kind : StationKind) (o : OrderKind) (n : Nat) : Effect :=
  (s, s.postTo kind o (.sequence n false))

def State.setClamp (s : State) (c : ClampRecord) : State := { s with seq := { s.seq with clamp := c } }

def State.setGauge (s : State) (g : GaugeRecord) : State := { s with seq := { s.seq with gauge := g } }

/-- GAUGE MOVE(p): the gauge record is p, not done, from the posting (R88). -/
def State.sequenceMove (s : State) (p n : Nat) : Effect := (s.setGauge (.known p false)).sequence .gauge (.move p) n

/-! ### Beginning a phase (R87, R89 to R92) -/

/-- POSITIONING: the step's checks again, CLAMP RELEASE if the clamp is down, then GAUGE MOVE(target) (R89). -/
def beginPositioning (n : Nat) (l : Lay) (s : State) : Effect :=
  match (s.stepOf l).map (checkCut s.cell.params (l.x.getD 0)) with
  | some (.cut g) =>
    if s.clampDown then (s.updateLay n fun l => { l with target := some g }).sequence .clamp .release n
    else (s.updateLay n fun l => { l with target := some g }).sequenceMove g n
  | some .gaugeLimit => checkFails n .gaugeLimit s
  | some .shortCut => checkFails n .shortCut s
  | _ => (s.updateLay n Lay.toStepStart, [])

/-- RELEASING ends: the piece in hand is handed over; the lay is at its step start, or a draining lay in PUSHING (R90, R92). -/
def releasingEnds (n : Nat) (s : State) : State :=
  (s.handOverInHand).updateLay n fun l =>
    if l.eff = .draining then l.beginPhase .pushing (some 0) else l.toStepStart

def beginReleasing (n : Nat) (s : State) : Effect :=
  if s.clampDown then s.sequence .clamp .release n else (releasingEnds n s, [])

/-- The turn order of the step the lay stands at. -/
def turnOrder : Option Step → OrderKind
  | some (.turn q) => .rotate q
  | _ => .invert

/-- TURNING: the turn check again, the clamp released, the gauge at GAUGE_MAX, then the turn; ORDER_REFUSED with CANNOT where no
TURN slot is configured (R91). -/
def beginTurning (n : Nat) (l : Lay) (s : State) : Effect :=
  let p := s.cell.params
  let st := s.stepOf l
  let fits := match st with
    | some (.turn q) => turnOk p (l.x.getD 0) (l.y.getD 0) q
    | _ => true
  if fits = false then checkFails n .sizeLimit s
  else if s.clampDown then s.sequence .clamp .release n
  else if s.seq.gauge ≠ .known p.gaugeMax true then s.sequenceMove p.gaugeMax n
  else if (s.working .turn).isNone then
    (s, [.raise .orderRefused (.lay n) (reasonIndex .cannot), .giveUp n])
  else s.sequence .turn (turnOrder st) n

/-- PUSHING: CLAMP RELEASE if the clamp is down, then GAUGE PUSH_OUT (R92). -/
def beginPushing (n : Nat) (s : State) : Effect :=
  if s.clampDown then s.sequence .clamp .release n
  else (s.setGauge .unknown).sequence .gauge .pushOut n

/-- A phase is begun, or goes on, with its next order; STROKING posts nothing (Figure 25). -/
def beginPhase (n : Nat) (l : Lay) (p : Phase) (s : State) : Option Effect :=
  match p with
  | .positioning => some (beginPositioning n l s)
  | .clamping => some (s.sequence .clamp (.clamp (l.press.getD 1)) n)
  | .stroking => none
  | .releasing => some (beginReleasing n s)
  | .turning => some (beginTurning n l s)
  | .pushing => some (beginPushing n s)

/-- The sequencer has begun the phase (R87). -/
def State.markBegun (s : State) (p : Phase) : State := { s with seq := { s.seq with begun := some p } }

/-- A cut that has not reached its stroke is wound back in STOPPING (R95). -/
def windBack (n : Nat) (s : State) : Effect :=
  if s.clampDown then
    ((s.markBegun .releasing).updateLay n fun l => { l with phase := some .releasing }).sequence .clamp .release n
  else (s.updateLay n Lay.toStepStart, [])

/-- In STOPPING: wind a cut back, or go on with a RELEASING, TURNING or PUSHING that has been begun; another waits for RUNNING (R87, R95,
log 18). -/
def stoppingPhase (n : Nat) (l : Lay) (p : Phase) (s : State) : Option Effect :=
  match p with
  | .positioning | .clamping => some (windBack n s)
  | .stroking => if s.permitted n then none else some (windBack n s)
  | .releasing | .turning | .pushing => if s.seq.begun = some p then beginPhase n l p s else none

/-- The lay on the TABLE with a phase, not HELD, with no sequencer order outstanding (R87, R95). A cell that is RUNNING or STOPPING
has its GAUGE and CLAMP slots (R161, R192). -/
def phaseRule (s : State) : Option Effect :=
  match s.zones.table.occupant with
  | none => none
  | some n =>
    match s.lay? n with
    | none => none
    | some l =>
      if (l.state = .cutting ∨ l.state = .draining) ∧ s.sequencing n = false ∧ (s.working .gauge).isSome ∧
          (s.working .clamp).isSome then
        l.phase.bind fun p =>
          if s.cell.state = .running then beginPhase n l p (s.markBegun p)
          else if s.cell.state = .stopping then stoppingPhase n l p s
          else none
      else none

/-- The phase that has been begun stands: the lay on the TABLE is in it and is not HELD, or its order is awaited (R19, R87). -/
def State.begunStands (s : State) : Bool :=
  s.zones.table.occupant.any fun n => (s.lay? n).any fun l =>
    decide (l.phase = s.seq.begun) && (decide (l.state ≠ .held) || s.sequencing n)

/-- A phase that has ended or stands in a hold with no order awaited counts as begun no more (R19, R87, log 18). -/
def begunRule (s : State) : Option Effect :=
  if s.seq.begun.isSome = true ∧ s.begunStands = false then some ({ s with seq := { s.seq with begun := none } }, []) else none

/-! ### Ends of the sequencer's orders (R88 to R94, R106) -/

/-- The records after an order that did not end with DONE (R88). -/
def State.recordsUnknown (s : State) (k : Nat) (o : Order) : State :=
  let sequenced := o.sources.any fun c => match c with
    | .sequence _ _ => true
    | _ => false
  match o.kind with
  | .clamp _ | .release => if sequenced ∨ s.working .clamp = some k then s.setClamp .unknown else s
  | .move _ | .pushOut => if sequenced ∨ s.working .gauge = some k then s.setGauge .unknown else s
  | _ => s

/-- A phase that stands and was not cut off by a halt advances (R16, R89, R106). -/
def Lay.advancePhase (old new : Phase) (beforeHalt : Bool) (l : Lay) : Lay :=
  if l.eff = .cutting ∧ l.phase = some old ∧ beforeHalt = false then { l with phase := some new } else l

/-- CLAMP RELEASE done: in RELEASING the phase ends, in other phases it goes on (R90 to R92). -/
def releaseDone (n : Nat) (s : State) : State :=
  let s' := s.setClamp .released
  if (s.lay? n).any fun l => decide (l.phase = some .releasing) then releasingEnds n s' else s'

/-- A turn order's DONE commits the step; for a lay that drains meanwhile only the geometry (R46, R47, log 17). -/
def turnDone (n : Nat) (f : Lay → Lay) (s : State) : State :=
  s.updateLay n fun l => if l.eff = .cutting ∧ l.phase = some .turning then (f l).toStepStart.advance else f l

/-- PUSH_OUT done: the TABLE is released, the lay is FINISHING, its remainder handed over (R13, R83, R92). -/
def pushOutDone (n : Nat) (s : State) : Effect :=
  match s.lay? n with
  | none => (s, [])
  | some l =>
    let s1 := (s.setGauge (.known s.cell.params.gaugeMax true)).vacate .table n
    let s2 := s1.updateLay n fun l => (l.setEff .finishing).toStepStart
    (s2.handOver n (s.remainderClass l) (l.x.getD 0) (l.y.getD 0) .remainder, [.finishTest n])

/-- A sequencer order is done. -/
def sequenceDone (kind : OrderKind) (n : Nat) (beforeHalt : Bool) (s : State) : Effect :=
  match kind with
  | .move p => ((s.setGauge (.known p true)).updateLay n (Lay.advancePhase .positioning .clamping beforeHalt), [])
  | .clamp level => ((s.setClamp (.clamped n level)).updateLay n (Lay.advancePhase .clamping .stroking beforeHalt), [])
  | .release => (releaseDone n s, [])
  | .rotate q => (turnDone n (Lay.rotate q) s, [])
  | .invert => (turnDone n Lay.invertFace s, [])
  | .pushOut => pushOutDone n s
  | _ => (s, [])

/-- A turn order that was in flight at a halt and ends aborted, dropped or lost raises INTERRUPTED with the step index (R46, R106), where
its lay still cuts and stands in TURNING (log 17); without a halt it raises nothing (R94). -/
def turnAborted (kind : OrderKind) (n : Nat) (beforeHalt : Bool) (s : State) : List Task :=
  match kind with
  | .rotate _ | .invert =>
    if beforeHalt && (s.lay? n).any fun l => decide (l.eff = .cutting ∧ l.phase = some .turning) then
      [.raise .interrupted (.lay n) (s.stepDetail n)]
    else []
  | _ => []

/-- A sequencer order ends. -/
def sequenceEnds (kind : OrderKind) (n : Nat) (beforeHalt : Bool) (how : End) (s : State) : Effect :=
  if how.isDone then sequenceDone kind n beforeHalt s
  else if how.isAborted then (s, turnAborted kind n beforeHalt s)
  else (s, refusalTasks n how)

end Sys2Proof.Machine
end

