-- ==== Sys2Proof/Machine/Cell.lean ====
section
/-! DEFINITION. Cell Control (spec file 09): entries into states, halts, start, wake, park, stop and probe; the lamps' wanted
values (R127); the slots' probes (R119). -/

namespace Sys2Proof.Machine

def State.setCell (s : State) (c : CellControl) : State := { s with cell := c }

/-! ### Entering a state (R159) -/

/-- Cell Control's own fields at an entry: timers of the state left stop (R161, R166, R168), a wake is no longer wanted in WAKING. -/
def CellControl.goTo (st : CellState) (c : CellControl) : CellControl :=
  { c with
    state := st
    idle := if st = .running then c.idle else none
    settle := none
    lockWait := none
    wakeWanted := if st = .waking then false else c.wakeWanted }

/-- On the entry into RUNNING every piece left UNPOSTED in STOPPING may be posted again (R136). -/
def Delivery.resume (st : CellState) (d : Delivery) : Delivery :=
  if st = .running then { d with pieces := d.pieces.map fun p => { p with late := false } } else d

/-- The state may be entered now: HALTED is entered by a CELL event alone (R150), and left for STANDBY or OFF alone (R151). -/
def State.mayEnter (s : State) (st : CellState) : Bool :=
  decide (st ≠ .halted) && (decide (s.cell.state ≠ .halted) || decide (st = .standby) || decide (st = .off))

/-- The cell enters a state other than HALTED: CELL_STATE is raised, no halt cause stands any more (R151), and what the entry
starts follows (R159, R167, R168). -/
def enterState (st : CellState) (s : State) : Effect :=
  if s.mayEnter st = false then (s, [])
  else
    ({ s with
        cell := s.cell.goTo st
        events := { s.events with haltCause := none }
        delivery := s.delivery.resume st },
      .raise .cellState .none st.index ::
        (match st with
          | .parked => if s.cell.wakeWanted then [.enter .waking] else []
          | .waking => [.wakeTest]
          | _ => []))

/-- A start or a wake fails: its orders no longer concern Cell Control, the cell enters STANDBY (R162, R168). -/
def startFails (s : State) : Effect := (s.detachCell, [.enter .standby])

/-- A STOP asked of Cell Control by a button is taken in RUNNING (R126, R163). -/
def stopAsked (s : State) : Effect := (s, if s.cell.state = .running then [.enter .stopping] else [])

/-! ### What a halt does to the lay on the TABLE and to the slots (R105, R117) -/

/-- The phase a lay on the TABLE is left in by a halt (R105). -/
def haltPhase : Phase → Phase
  | .positioning | .clamping | .stroking => .positioning
  | .releasing => .releasing
  | .turning => .turning
  | .pushing => .pushing

/-- The lay on the TABLE takes the phase in which it resumes (R105). A HELD lay with nothing in flight takes it too: R105's last paragraph
is followed, R24's table leaves such a lay unchanged (log 34). -/
def haltLay (s : State) : State :=
  match s.zones.table.occupant with
  | some n => s.updateLay n fun l => { l with phase := l.phase.map haltPhase }
  | none => s

/-- The gate and the lay on the TABLE at a halt (R105). -/
def haltTable (s : State) : Effect :=
  let s1 := haltLay s
  match s.gate.state, s.gate.permit with
  | .stroke, some p =>
    (({ s1 with gate := s1.gate.withdraw }).takeDeferred, [.raise .interrupted (.lay p.lay) p.step])
  | .opened, _ => ({ s1 with gate := s1.gate.withdraw }, [])
  | _, _ => (s1, [])

/-- Every posted and waiting order of a lay origin is dropped (R117, step 1); handed over in slot-number order, in a slot the posted
orders first (log 40). -/
def haltDrop (s : State) : Effect :=
  let keep := fun (x : Slot) => ({ x with
    posted := x.posted.filter fun o => !o.isLayOrigin
    waiting := x.waiting.filter fun o => !o.isLayOrigin } : Slot).refill
  ({ s with slots := s.slots.map keep },
    s.slots.zipIdx.flatMap fun p =>
      ((p.1.posted ++ p.1.waiting).filter Order.isLayOrigin).flatMap fun o => endTasks p.2 none o .dropped)

/-- The slots, in slot-number order, that satisfy p. -/
def State.slotsWhere (s : State) (p : Slot → Bool) : List Nat :=
  (s.slots.zipIdx.filter fun q => p q.1).map Prod.snd

/-- STOP of origin CELL to every READY slot (R117, step 2), in slot-number order, so that the announced STOPs' frames go before those that
idle slots send (log 49). -/
def haltStop (s : State) : Effect :=
  (s, (s.slotsWhere fun x => decide (x.state = .ready)).map fun k => .post k ⟨.stop, [.cell false]⟩)

/-! ### Starting, waking, parking (R161, R167, R168) -/

/-- The starting orders: ENABLE(on) to every READY slot with ENABLE, then LOCK to the GUARD slot (R161). -/
def State.startingOrders (s : State) : List Task :=
  ((s.slotsWhere fun x => decide (x.state = .ready) && x.caps.any Caps.enable).map fun k =>
    Task.post k ⟨.enable true, [.cell true]⟩) ++ s.postTo .guard .lock (.cell true)

/-- ENABLE to the working CLAMP, KNIFE and LIFT slots, in that order (R167, R168). -/
def State.driveOrders (s : State) (on : Bool) : List Task :=
  s.postTo .clamp (.enable on) (.cell true) ++ s.postTo .knife (.enable on) (.cell true) ++ s.postTo .lift (.enable on) (.cell true)

/-- The tests of the entry into WAKING, and the waking orders (R168). -/
def wakeTest (s : State) : Effect :=
  if s.kindsReady = false then startFails s
  else if s.guardClosed = false then (s, [.raise .guardOpen (.slot ((s.working .guard).getD 0)) 0])
  else (s, s.driveOrders true ++ s.postTo .guard .lock (.cell true))

/-- PARKED once every parking order has ended (R167): at the hand-over of the last one's end (log 54). -/
def parkTest (s : State) : Effect :=
  (s, if s.cell.state = .parking ∧ s.awaiting = false then [.enter .parked] else [])

/-- The idle timer runs out: PARKING and the parking orders (R167). -/
def idleExpiry (s : State) : Effect :=
  if s.cell.idle.isSome then (s, .enter .parking :: s.driveOrders false) else (s, [])

/-- The lock wait starts at the GUARD slot's order timeout (R161). -/
def State.startLockWait (s : State) : State :=
  s.setCell { s.cell with settle := none, lockWait := some (((s.workingSlot .guard).map Slot.timeoutOf).getD 0) }

/-- The settle timer has expired: RUNNING where the guard says closed and locked, else the lock wait (R168). -/
def settled (s : State) : Effect :=
  if s.guardLocked then (s, [.enter .running]) else (s.startLockWait, [])

def settleExpiry (s : State) : Effect := if s.cell.settle.isSome then settled s else (s, [])

/-- The lock wait runs out: the start or wake fails (R162, R168). -/
def lockWaitExpiry (s : State) : Effect :=
  if s.cell.lockWait.isSome then
    startFails (s.setCell { s.cell with lockWait := none })
  else (s, [])

/-- The end of a starting, waking or parking order (R161, R162, R167, R168). -/
def cellEnds (tag : Option Nat) (how : End) (s : State) : Effect :=
  match s.cell.state with
  | .starting | .waking => if how.isDone then (s, []) else startFails s
  | .parking => (s, if tag.isSome then [.parkTest] else [])
  | _ => (s, [])

/-- No lay-origin order is outstanding and the gate is CLOSED or LOCKED_OUT (R163). -/
def State.stopped (s : State) : Bool :=
  !s.outstanding Source.isLayOrigin && (decide (s.gate.state = .closed) || decide (s.gate.state = .lockedOut))

/-- The cell state changes that wait for a condition (R160, R161, R163, R167, R168). -/
def cellRule (s : State) : Option Effect :=
  match s.cell.state with
  | .probing => if s.slots.any fun x => decide (x.state = .probing) then none else some (s, [.enter .standby])
  | .starting =>
    if s.awaiting then none
    else if s.guardLocked then some (s, [.enter .running])
    else if s.cell.lockWait.isSome then none
    else some (s.startLockWait, [])
  | .waking =>
    if s.awaiting then none
    else if s.cell.lockWait.isSome then (if s.guardLocked then some (s, [.enter .running]) else none)
    else if s.cell.settle.isSome then none
    else if s.cell.params.wakeSettle = 0 then some (settled s)
    else some (s.setCell { s.cell with settle := some s.cell.params.wakeSettle }, [])
  | .stopping => if s.stopped then some (s, [.enter .standby]) else none
  | .parking => if s.awaiting then none else some (s, [.enter .parked])
  | .off | .standby | .running | .halted | .parked => none

/-- The idle timer runs exactly while the cell is RUNNING and the Lay Table is empty (R166). -/
def idleRule (s : State) : Option Effect :=
  match s.cell.idle with
  | some _ => if s.tableEmpty then none else some (s.setCell { s.cell with idle := none }, [])
  | none =>
    if s.cell.state = .running ∧ s.tableEmpty ∧ s.cell.params.idlePark ≠ 0 then
      some (s.setCell { s.cell with idle := some s.cell.params.idlePark }, [])
    else none

/-! ### Probes (R119, R120) -/

/-- The configured slots that satisfy p enter PROBING; with the ring DOWN none does (R119). -/
def State.probe (s : State) (p : Slot → Bool) : State :=
  if s.link.ringUp then
    { s with slots := s.slots.map fun x => if x.config.isSome && p x then { x with state := .probing } else x }
  else s

/-! ### Lamps (R127) -/

/-- The slot has an order of another origin than LAMP. -/
def Slot.busy (x : Slot) : Bool := x.orders.any fun o => decide (o.sources ≠ [.lamp])

/-- The value AUTO wants now (R127). -/
def Slot.wantedNow (x : Slot) : LampState :=
  match x.state with
  | .ready => if x.busy then .on else .off
  | .faulted | .absent => .blink
  | .probing | .unused => x.wanted

def Slot.isAuto (x : Slot) : Bool := x.config.any fun c => decide (c.lamp = .auto)

/-- The wanted value is set; lamp pending is it, or absent where it equals the lamp state (R127). -/
def Slot.want (v : LampState) (x : Slot) : Slot :=
  { x with wanted := v, lampPending := if v = x.lamp then none else some v }

/-- A change of a slot's wanted value (R127, log 24). -/
def lampRule (s : State) : Option Effect :=
  match s.slots.findIdx? fun x => x.isAuto && decide (x.wantedNow ≠ x.wanted) with
  | none => none
  | some k => some (s.updateSlot k fun x => x.want x.wantedNow, [])

/-- A slot that can send does (R112). -/
def sendRule (s : State) : Option Effect :=
  ((List.range 12).findSome? s.slotSend).map fun s' => (s', [])

end Sys2Proof.Machine
end

