-- ==== Sys2Proof/Machine/Link.lean ====
section
/-! DEFINITION. The Link Unit's transmitters and queues (spec file 10): the answer list and direct credit, copies, the U-port
transmitter, the frames sent and their bytes. -/

namespace Sys2Proof.Machine

/-! ### Frames sent on the U-port (spec file 12) -/

/-- The frame kind code (Figure 55). -/
def SentKind.code : SentKind → Byte
  | .reply => 4
  | .notice => 5
  | .directAnswer => 6
  | .copy => 7

/-- The bytes a U-port frame leaves as (Figure 54, R172). -/
def UFrame.bytes (f : UFrame) : List Byte :=
  Envelope.bytes ⟨f.kind.code, byteOf f.address, f.tag, f.payload⟩

/-- The bytes an ORDER frame leaves as. -/
def OrderFrame.bytes (f : OrderFrame) : List Byte :=
  Envelope.bytes ⟨8, byteOf f.node, byteOf f.tag, encodeOrder f.kind⟩

/-- Subject form and subject (spec file 12). -/
def subjectBytes : Subject → List Byte
  | .none => 0 :: nat16 0
  | .lay n => 1 :: nat16 n
  | .slot n => 2 :: nat16 n
  | .job n => 3 :: nat16 n

def noticeFrame (i : Nat) (subject : Subject) (detail : Nat) : UFrame where
  kind := .notice
  address := 0
  tag := 0
  payload := byteOf i :: subjectBytes subject ++ nat16 detail

def copyFrame (c : Copy) : UFrame where
  kind := .copy
  address := c.node
  tag := c.tag
  payload := byteOf c.slot :: encodeReport c.report

/-- The results of a DIRECT_ANSWER, with their codes (R177, R178, spec file 12). -/
inductive DirectResult where
  | done (value : BitVec 32)
  | refused (reason : Reason)
  | timeout
  | notPermitted
  | queueFull
  deriving DecidableEq, Repr

def DirectResult.bytes : DirectResult → List Byte
  | .done v => 0 :: be32 v
  | .refused r => 1 :: nat32 (reasonIndex r)
  | .timeout => 2 :: nat32 0
  | .notPermitted => 3 :: nat32 0
  | .queueFull => 4 :: nat32 0

def directAnswer (node : Nat) (tag : Byte) (r : DirectResult) : UFrame where
  kind := .directAnswer
  address := node
  tag := tag
  payload := r.bytes

/-- A frame joins the answer list's tail (R182). -/
def State.answer (s : State) (f : UFrame) : State := s.setLink { s.link with answers := s.link.answers ++ [f] }

/-- The result a DIRECT order's end is answered with (R178). -/
def directResult : End → DirectResult
  | .done v => .done v
  | .refused r => .refused r
  | .timedOut => .timeout
  | .dropped | .lost => .refused .aborted

/-- A DIRECT order ends: its DIRECT_ANSWER joins the answer list (R178). -/
def directEnds (k : Nat) (tag : Byte) (how : End) (s : State) : State :=
  s.answer (directAnswer (((s.slot k).config.map SlotConfig.node).getD 0) tag (directResult how))

/-! ### Copies (R180) -/

/-- A copy joins the copy queue, or is dropped. -/
def takeCopy (c : Copy) (s : State) : Effect :=
  if s.link.copies.length < 8 then (s.setLink { s.link with copies := s.link.copies ++ [c] }, [])
  else
    let s' := s.countU fun t => { t with copiesDropped := bump32 t.copiesDropped }
    (s'.setLink { s'.link with sFlags := s'.link.sFlags.markOverrun }, [.raise .linkOverrun .none (portDetail .s)])

/-! ### The U-port transmitter (R182, R153, R176) -/

/-- The owed notice of the lowest kind. -/
def EventUnit.firstOwed (e : EventUnit) : Option (Nat × Subject × Nat) :=
  (List.range 32).findSome? fun i => (e.kindAt i).owed.map fun o => (i, o.1, o.2)

/-- The transmitter takes the frame. -/
def State.send (s : State) (f : UFrame) : State := s.setLink { s.link with sending := some f }

/-- The idle transmitter with lock takes one frame: the oldest answer, else the lowest owed notice, else the oldest copy. -/
def takeFrame (s : State) : State :=
  if s.link.sending.isSome ∨ s.link.uLock = false then s
  else match s.link.answers with
    | f :: rest =>
      s.setLink { s.link with
        sending := some f
        answers := rest
        credit := if f.kind = .directAnswer then s.link.credit - 1 else s.link.credit }
    | [] =>
      match s.events.firstOwed with
      | some (i, subject, detail) =>
        { s.send (noticeFrame i subject detail) with
          events := s.events.modifyKind i fun r => { r with owed := none } }
      | none =>
        match s.link.copies with
        | c :: rest => s.setLink { s.link with sending := some (copyFrame c), copies := rest }
        | [] => s

/-- A frame ends on the U-port: its sent statistic rises (Figure 47). -/
def UStats.sent (k : SentKind) (t : UStats) : UStats :=
  match k with
  | .reply | .directAnswer => { t with replies := bump32 t.replies }
  | .notice => { t with notices := bump32 t.notices }
  | .copy => { t with copies := bump32 t.copies }

/-- The S-port transmitter's frame has ended; the next begins (R181). -/
def orderFrameEnds (s : State) : State :=
  match s.link.leaving with
  | none => s
  | some _ =>
    let s' := s.countS fun t => { t with orders := bump32 t.orders }
    match s.link.output with
    | [] => s'.setLink { s'.link with leaving := none }
    | f :: rest => s'.setLink { s'.link with leaving := some f, output := rest }

end Sys2Proof.Machine
end

