-- ==== Sys2Proof/Machine/Agenda.lean ====
section
/-! DEFINITION. One event: what each piece of work does, the order in which what waited for a condition is taken up, and the event
as a whole (R142, logs 4 and 6). -/

namespace Sys2Proof.Machine

/-! ### Order ends (R113) -/

/-- The slot takes a done order's effect on its own record (Figure 30, R110, R178). -/
def Slot.orderDone (o : Order) (x : Slot) : Slot :=
  match o.kind with
  | .enable on => { x with drive := on }
  | .lamp v => if o.sources = [.lamp] then x else { x with lamp := v }
  | _ => x

/-- An order has ended: the slot's own record, the clamp and gauge records, then each origin; the origins of a joined STOP in the order in
which they joined (log 45). -/
def orderEnded (k : Nat) (tag : Option Nat) (o : Order) (how : End) (s : State) : Effect :=
  (if how.isDone then s.updateSlot k (Slot.orderDone o) else s.recordsUnknown k o,
    o.sources.map fun src => .endFor k tag o.kind src how)

/-- The end of an order reaches one of its origins. -/
def endFor (k : Nat) (tag : Option Nat) (kind : OrderKind) (src : Source) (how : End) (s : State) : Effect :=
  match src with
  | .sequence n beforeHalt => sequenceEnds kind n beforeHalt how s
  | .arbiter n => arbiterEnds kind n how s
  | .gate n => gateEnds kind k n tag how s
  | .delivery n piece => deliverEnds n piece how s
  | .cell awaited => if awaited then cellEnds tag how s else (s, [])
  | .lamp => (s, [])
  | .direct answerTag => (directEnds k answerTag how s, [])

/-! ### LOAD_SLOT's write (R130) -/

/-- The slot's record after a LOAD_SLOT: next tag and lamp state are kept (R127, R130). -/
def Slot.load (c : Option SlotConfig) (x : Slot) : Slot :=
  let base := { Slot.unused with config := c, nextTag := x.nextTag, lamp := x.lamp }
  match c with
  | none => base
  | some c' =>
    match c'.lamp with
    | .auto => { base with state := .absent }.want .blink
    | .fixed v => { base with state := .absent, lampPending := some v }

/-- The configuration is written once the slot holds no work; work that came meanwhile is dropped first. -/
def writeSlot (k : Nat) (c : Option SlotConfig) (s : State) : Effect :=
  let x := s.slot k
  if x.orders = [] then (s.setSlot k (x.load c), [])
  else ((s.withdraw k x.tags).setSlot k x.cleared, x.droppedTasks k ++ [.writeSlot k c])

/-! ### What waits for a condition -/

/-- The rules in the order in which they are tried (log 4): a DELIVER is posted before the next step start or boundary is taken (R34,
R90). -/
def settleRules : List (State → Option Effect) :=
  [deliverRule, boundaryRule, lowerRule, fillRule, jogRule, begunRule, phaseRule, stepRule, presentRule, permitOrGrantRule, cellRule,
    idleRule, lampRule, sendRule]

/-- The first rule that applies is taken, and the rules are tried again after it; none: the event has settled. -/
def settle (s : State) : Effect :=
  match settleRules.findSome? fun r => r s with
  | some (s', tasks) => (s', tasks ++ [.settle])
  | none => (s, [])

/-! ### One piece of work -/

/-- What a piece of work does. -/
def perform (t : Task) (s : State) : Effect :=
  match t with
  | .raise kind subject detail => takeEvent kind subject detail s
  | .haltTable => haltTable s
  | .haltDrop => haltDrop s
  | .haltStop => haltStop s
  | .ended k tag o how => orderEnded k tag o how s
  | .endFor k tag kind src how => endFor k tag kind src how s
  | .post k o => postOrder k o s
  | .moveEnded n => moveEnded n s
  | .giveUp n => giveUp n s
  | .execUnheld n => execUnheld n s
  | .drainUnheld n => drainUnheld n s
  | .finishTest n => finishTest n s
  | .unbidden d => unbidden d s
  | .lockOutOrder => lockOutOrder s
  | .enter st => enterState st s
  | .parkTest => parkTest s
  | .wakeTest => wakeTest s
  | .writeSlot k c => writeSlot k c s
  | .copy c => takeCopy c s
  | .bind n e => bindLay n e s
  | .fillEnds => fillEnds s
  | .release n => releaseLay n s
  | .recheckFailed n kind d => recheckFailed n kind d s
  | .stopAsked => stopAsked s
  | .settle => settle s

/-- Work is done depth first: what a piece of work gives rise to comes before what stood behind it (R142). What is left when the
bound is reached stays in the agenda (log 6). -/
def drainAgenda : Nat → List Task → State → State
  | _, [], s => s
  | 0, ts, s => { s with agenda := ts }
  | n + 1, t :: ts, s =>
    let r := perform t s
    drainAgenda n (r.2 ++ ts) r.1

/-- The work of an event, after any left over from an earlier one, until everything has settled. -/
def complete (e : Effect) : State :=
  drainAgenda Config.eventBound (e.1.agenda ++ e.2 ++ [.settle]) { e.1 with agenda := [] }

/-- One event: its primary effect, its work, then the U-port transmitter (R182). -/
def event (prim : State → Effect) (s : State) : State := takeFrame (complete (prim s))

/-- While RESET_N is held low nothing happens (R170). -/
def unlessReset (f : State → State) (s : State) : State := if s.resetHeld then s else f s

end Sys2Proof.Machine
end

