-- ==== Sys2Proof/Machine/Reports.lean ====
section
/-! DEFINITION. The commands received on the S-port: a station's reports (R114, R119, R121 to R126, R179, R180). -/

namespace Sys2Proof.Machine

def stray (k detail : Nat) : List Task := [.raise .strayReport (.slot k) detail]

/-- The slot's station kind. -/
def Slot.kind? (x : Slot) : Option StationKind := x.config.map SlotConfig.kind

/-- IDENT_ANS: the probe ends; with no IDENT in flight it is a STRAY_REPORT (R114, R119, log 13). -/
def takeIdentAns (k : Nat) (kind : StationKind) (caps : Caps) (s : State) : Effect :=
  let x := s.slot k
  let matching := decide (x.kind? = some kind)
  if x.inFlight.all fun i => decide (i.order.kind ≠ .ident) then (s, stray k 512)
  else
    let y := { x.clearFlight with caps := if matching then some caps else x.caps }
    let state := if x.state = .probing then (if matching then .ready else .faulted) else x.state
    (s.endFlight k { y with state := state },
      if matching then [] else [.raise .stationFault (.slot k) (256 + StationKind.index kind)])

/-- DONE or REFUSED: matched by its tag alone (R114). -/
def matched (x : Slot) (tag : Byte) : Option InFlight := x.inFlight.filter fun i => decide (i.tag = tag.toNat)

/-- DONE (R114); a stray one of a KNIFE slot with the last STROKE tag still reaches the gate (R124). -/
def takeDone (k : Nat) (tag : Byte) (value : BitVec 32) (s : State) : Effect :=
  let x := s.slot k
  match matched x tag with
  | some i => (s.endFlight k x.clearFlight, endTasks k (some i.tag) i.order (.done value))
  | none =>
    let knife := x.isKind .knife && decide (x.lastStrokeTag = some tag.toNat)
    (s, stray k tag.toNat ++ if knife then [.unbidden (tag.toNat + 256)] else [])

/-- REFUSED (R114). -/
def takeRefused (k : Nat) (tag : Byte) (reason : Reason) (s : State) : Effect :=
  let x := s.slot k
  match matched x tag with
  | some i => (s.endFlight k x.clearFlight, endTasks k (some i.tag) i.order (.refused reason))
  | none => (s, stray k (256 + tag.toNat))

/-- The position a POS report carries (R124, R197). -/
def positionOf (x : Slot) (value : BitVec 32) : Position :=
  if x.isKind .knife then (if value = 0 then .top else .away) else .value value.toNat

def takePos (k : Nat) (value : BitVec 32) (s : State) : Effect :=
  (s.updateSlot k fun x => { x with position := some (positionOf x value) }, [])

/-- STROKE_BEGIN goes to the gate from any KNIFE slot (R98, R124). -/
def takeStrokeBegin (k : Nat) (tag : Byte) (s : State) : Effect :=
  if (s.slot k).isKind .knife then strokeBegins k tag.toNat s else (s, stray k 513)

/-- FAULT (R121): the slot is FAULTED when its event is taken (log 52). -/
def takeFault (k : Nat) (code : Byte) (s : State) : Effect :=
  (s.updateSlot k fun x => { x with
      faultCode := some code
      state := if x.state = .ready ∨ x.state = .probing then .faulted else x.state },
    [.raise .stationFault (.slot k) code.toNat])

/-- BUTTON (R126). -/
def takeButton (k : Nat) (s : State) : Effect :=
  let x := s.slot k
  if x.caps.any Caps.button then
    match x.config.map SlotConfig.button with
    | some .notify => (s, [.raise .button (.slot k) 0])
    | some .stopCell => (s, [.raise .button (.slot k) 1, .stopAsked])
    | _ => (s, [])
  else (s, stray k 515)

/-- The slot goes to ABSENT, its waiting frames are withdrawn; what it loses is handed over first (R118, R122, R181). -/
def State.loseSlot (s : State) (k : Nat) : Effect :=
  ((s.withdraw k (s.slot k).tags).setSlot k (s.slot k).toAbsent, (s.slot k).lostTasks k)

/-- PRESENCE DOWN of a working slot raises no STATION_LOST where the station is removable and idle and the cell is not RUNNING
(R122). -/
def mayLeave (x : Slot) (s : State) : Bool :=
  x.config.any SlotConfig.removable && x.inFlight.isNone && decide (s.cell.state ≠ .running)

/-- PRESENCE (R122). -/
def takePresence (k : Nat) (up : Bool) (s : State) : Effect :=
  if up then (s, [.raise .presenceChanged (.slot k) 1])
  else
    let x := s.slot k
    let r := s.loseSlot k
    (r.1, r.2 ++ .raise .presenceChanged (.slot k) 0 ::
      (if x.state = .absent ∨ mayLeave x s then [] else [.raise .stationLost (.slot k) 0]))

/-- Whether a guard report raises GUARD_OPEN, and its detail (R125). -/
def guardEvent (st : CellState) (isOpen locked : Bool) : Option Nat :=
  match st, isOpen, locked with
  | .starting, true, _ | .running, true, _ | .stopping, true, _ | .waking, true, _ | .parking, true, _ => some 0
  | .running, false, false => some 1
  | _, _, _ => none

/-- GUARD_STATE (R125). -/
def takeGuardState (k : Nat) (isOpen locked : Bool) (s : State) : Effect :=
  if (s.slot k).isKind .guard then
    (s.updateSlot k fun x => { x with guard := some ⟨isOpen, locked⟩ },
      ((guardEvent s.cell.state isOpen locked).map fun d => Task.raise .guardOpen (.slot k) d).toList)
  else (s, stray k 514)

/-- The slot takes its report (R179). -/
def handReport (k : Nat) (tag : Byte) (r : Report) (s : State) : Effect :=
  match r with
  | .identAns kind caps => takeIdentAns k kind caps s
  | .done value => takeDone k tag value s
  | .refused reason => takeRefused k tag reason s
  | .pos value => takePos k value s
  | .strokeBegin => takeStrokeBegin k tag s
  | .fault code => takeFault k code s
  | .button => takeButton k s
  | .presence up => takePresence k up s
  | .guardState isOpen locked => takeGuardState k isOpen locked s

/-- The copy of a report to a slot whose forward flag is on (R180). -/
def copyTasks (k node : Nat) (tag : Byte) (r : Report) (x : Slot) : List Task :=
  if x.config.any SlotConfig.forward then [.copy ⟨k, node, tag, r⟩] else []

/-- A good REPORT is routed by its address (R179). -/
def routeReport (node : Nat) (tag : Byte) (r : Report) (s : State) : Effect :=
  let s1 := (s.goodFrame .s).countS fun t => { t with reports := bump32 t.reports }
  match s.slotAt node with
  | none =>
    (s1.countS fun t => { t with unknownNode := bump32 t.unknownNode }, [.raise .strayReport .none node])
  | some k =>
    let e := handReport k tag r s1
    (e.1, e.2 ++ copyTasks k node tag r (s.slot k))

/-- A report arrives; none is received while the ring is DOWN (log 7), and one with an address no node has fails check 6 (log 30). -/
def reportArrives (node : Nat) (tag : Byte) (r : Report) (s : State) : State :=
  unlessReset (fun s =>
    if s.link.ringUp = false then s
    else if within 0 31 node then event (routeReport node tag r) s
    else event (rejectFrame .s 6 none) s) s

/-- IDENT_ANS (R119). -/
def execIdentAns (node : Nat) (tag : Byte) (kind : StationKind) (caps : Caps) (s : State) : Host.Outcome State Fault Refusal :=
  .next (reportArrives node tag (.identAns kind caps) s)

/-- DONE (R114). -/
def execDone (node : Nat) (tag : Byte) (value : BitVec 32) (s : State) : Host.Outcome State Fault Refusal :=
  .next (reportArrives node tag (.done value) s)

/-- REFUSED (R114). -/
def execRefused (node : Nat) (tag : Byte) (reason : Reason) (s : State) : Host.Outcome State Fault Refusal :=
  .next (reportArrives node tag (.refused reason) s)

/-- POS (R124). -/
def execPos (node : Nat) (tag : Byte) (value : BitVec 32) (s : State) : Host.Outcome State Fault Refusal :=
  .next (reportArrives node tag (.pos value) s)

/-- STROKE_BEGIN (R98). -/
def execStrokeBegin (node : Nat) (tag : Byte) (s : State) : Host.Outcome State Fault Refusal :=
  .next (reportArrives node tag .strokeBegin s)

/-- FAULT (R121). -/
def execFault (node : Nat) (tag : Byte) (code : Byte) (s : State) : Host.Outcome State Fault Refusal :=
  .next (reportArrives node tag (.fault code) s)

/-- BUTTON (R126). -/
def execButton (node : Nat) (tag : Byte) (s : State) : Host.Outcome State Fault Refusal :=
  .next (reportArrives node tag .button s)

/-- PRESENCE (R122). -/
def execPresence (node : Nat) (tag : Byte) (up : Bool) (s : State) : Host.Outcome State Fault Refusal :=
  .next (reportArrives node tag (.presence up) s)

/-- GUARD_STATE (R125). -/
def execGuardState (node : Nat) (tag : Byte) (isOpen locked : Bool) (s : State) : Host.Outcome State Fault Refusal :=
  .next (reportArrives node tag (.guardState isOpen locked) s)

end Sys2Proof.Machine
end

