-- ==== Sys2Proof/Machine/Read.lean ====
section
/-! DEFINITION. The bodies of READ replies (R191, R199): each view of the state as bytes. -/

namespace Sys2Proof.Machine

/-! ### Fields (R199) -/

/-- A list is preceded by a one-byte count. -/
def counted (items : List (List Byte)) : List Byte := byteOf items.length :: items.flatten

/-- A field of so many bytes that may be absent: every byte 255 where it is. -/
def orAbsent (width : Nat) (v : Option (List Byte)) : List Byte := v.getD (List.replicate width 255)

/-- A field whose range includes the all-255 value: preceded by a presence byte. -/
def withPresence (width : Nat) (v : Option (List Byte)) : List Byte := flagByte v.isSome :: orAbsent width v

def nat8 (n : Nat) : List Byte := [byteOf n]

def flagOne (b : Bool) : List Byte := [flagByte b]

def optNat8 (v : Option Nat) : List Byte := orAbsent 1 (v.map nat8)

def optNat16 (v : Option Nat) : List Byte := orAbsent 2 (v.map nat16)

def optNat32 (v : Option Nat) : List Byte := orAbsent 4 (v.map nat32)

/-! ### Codes (Figure 61) -/

def LayState.code : LayState → Nat
  | .awaitJob => 0
  | .queued => 1
  | .moving => 2
  | .jogging => 3
  | .waiting => 4
  | .cutting => 5
  | .held => 6
  | .draining => 7
  | .finishing => 8

def Phase.code : Phase → Nat
  | .positioning => 0
  | .clamping => 1
  | .stroking => 2
  | .releasing => 3
  | .turning => 4
  | .pushing => 5

def zoneCode : Option ZoneId → Nat
  | some z => zoneIndex z
  | none => 4

def readFaceCode : Face → Nat
  | .up => 0
  | .down => 1

def PieceClass.code : PieceClass → Nat
  | .block => 0
  | .waste => 1

def PieceKind.code : PieceKind → Nat
  | .cut => 0
  | .remainder => 1

def DeliveryMode.code : DeliveryMode → Nat
  | .beltA => 0
  | .beltB => 1
  | .alternate => 2

def SlotState.code : SlotState → Nat
  | .unused => 0
  | .absent => 1
  | .probing => 2
  | .ready => 3
  | .faulted => 4

def GateState.code : GateState → Nat
  | .closed => 0
  | .opened => 1
  | .stroke => 2
  | .lockedOut => 3

def Source.code : Source → Nat
  | .sequence _ _ => 0
  | .arbiter _ => 1
  | .gate _ => 2
  | .delivery _ _ => 3
  | .cell _ => 4
  | .lamp => 5
  | .direct _ => 6

def EventClass.code : EventClass → Nat
  | .ignore => 0
  | .note => 1
  | .advisory => 2
  | .lay => 3
  | .cell => 4

def ButtonAction.code : ButtonAction → Nat
  | .none => 0
  | .stopCell => 1
  | .notify => 2

def LampMode.code : LampMode → Nat
  | .auto => 0
  | .fixed .off => 1
  | .fixed .on => 2
  | .fixed .blink => 3

/-! ### Records -/

/-- Kind, subject form, subject and detail: a halt cause, a deferred hold. -/
def eventBytes (kind : EventKind) (subject : Subject) (detail : Nat) : List Byte :=
  byteOf kind.index :: subjectBytes subject ++ nat16 detail

def haltCauseBytes (c : Option EventRecord) : List Byte :=
  orAbsent 6 (c.map fun r => eventBytes r.kind r.subject r.detail)

def holdCauseBytes (c : Option HoldCause) : List Byte :=
  orAbsent 3 (c.map fun h => match h with
    | .event kind detail => byteOf kind.index :: nat16 detail
    | .requested => byteOf 32 :: nat16 0)

/-- A summary record (Figure 60). -/
def summaryBytes (r : Summary) : List Byte :=
  nat16 r.job ++ nat16 r.pile ++ nat8 r.lay ++ flagOne r.abandoned ++ nat16 r.blocksA ++ nat16 r.blocksB ++ nat16 r.waste ++
    nat16 r.strokes ++ nat16 r.holds ++ optNat8 r.finalStep

/-- A stored step in its five bytes (spec file 12). -/
def stepBytes : Step → List Byte
  | .trim w => 1 :: nat32 w
  | .strip w => 2 :: nat32 w
  | .cutAt g .block => 3 :: nat32 g
  | .cutAt g .waste => 4 :: nat32 g
  | .fit p => 5 :: nat32 p
  | .repeatNext n => 6 :: nat32 n
  | .turn q => 7 :: nat32 q
  | .invert => 8 :: nat32 0
  | .press l => 9 :: nat32 l
  | .note k => 10 :: nat32 k
  | .pause => 11 :: nat32 0
  | .endProgram .block => 12 :: nat32 0
  | .endProgram .waste => 13 :: nat32 0
  | .endProgram .auto => 14 :: nat32 0

def clampBytes : ClampRecord → List Byte
  | .released => [0, 255, 255]
  | .clamped lay level => [1, byteOf lay, byteOf level]
  | .unknown => [2, 255, 255]

/-- The gauge record; the done mark of an UNKNOWN one is sent as 0 (log 21). -/
def gaugeBytes : GaugeRecord → List Byte
  | .known p done => nat32 p ++ flagOne done
  | .unknown => [255, 255, 255, 255, 0]

/-- An order's code, its argument bytes in four bytes, left to right, and its first origin with its lay (log 21). -/
def orderBytes (o : Order) : List Byte :=
  nat8 (orderCode o.kind) ++ (orderArgs o.kind ++ List.replicate (4 - (orderArgs o.kind).length) 0) ++
    optNat8 (o.sources.head?.map Source.code) ++ optNat8 (o.sources.head?.bind Source.lay?)

/-! ### Views (Figure 51) -/

def paramBytes (p : CellParams) : List Byte :=
  nat32 p.gaugeMin ++ nat32 p.gaugeMax ++ nat32 p.tableWidth ++ nat32 p.clampMaxH ++ nat32 p.fillTime ++ nat16 p.permitWindow ++
    nat16 p.strokeTime ++ nat16 p.probeTimeout ++ nat32 p.idlePark ++ nat16 p.wakeSettle ++ nat32 p.knifeWearLimit

/-- View CELL (R26, R68, R171). -/
def viewCell (s : State) : List Byte :=
  nat8 s.cell.state.index ++ haltCauseBytes s.events.haltCause ++ optNat32 s.cell.idle ++ optNat16 s.cell.settle ++
    optNat16 s.cell.lockWait ++ flagOne s.cell.wakeWanted ++ paramBytes s.cell.params ++ counted (s.order.map nat8) ++
    nat8 (s.lays.countP Option.isSome) ++ nat8 s.intake.tickets.length ++
    withPresence 6 (s.intake.fill.map fun f => nat16 f.job ++ nat32 f.left) ++ nat8 s.mgmt.length

/-- View LAY (Figure 7). -/
def viewLay (l : Lay) : List Byte :=
  nat8 l.state.code ++ nat16 l.job ++ nat16 l.pile ++ optNat8 l.program ++ optNat8 l.step ++ optNat16 l.runs ++ optNat32 l.x ++
    optNat32 l.y ++ nat32 l.height ++ nat8 l.turns ++ nat8 (readFaceCode l.face) ++ nat8 (zoneCode l.zone) ++
    optNat8 (l.phase.map Phase.code) ++ optNat32 l.target ++ optNat8 l.press ++ optNat8 (l.mode.map DeliveryMode.code) ++
    optNat16 l.jogTime ++ flagOne l.zero ++ flagOne l.short ++ optNat32 l.fitq ++ optNat32 l.fitr ++ nat16 l.strokes ++
    nat16 l.blocksA ++ nat16 l.blocksB ++ nat16 l.waste ++ nat16 l.holds ++ holdCauseBytes l.cause ++
    optNat8 (l.heldFrom.map LayState.code) ++ optNat8 (if l.heldFrom.isSome then l.phase.map Phase.code else none) ++
    flagOne l.holdWanted ++ flagOne l.abandonWanted

def configBytes (c : SlotConfig) : List Byte :=
  nat8 (StationKind.index c.kind) ++ nat8 c.node ++ nat16 c.timeout ++ nat8 c.button.code ++ nat8 c.lamp.code ++ flagOne c.forward ++
    be24 c.permitted ++ flagOne c.removable

def positionBytes (p : Option Position) : List Byte :=
  withPresence 4 (p.map fun q => match q with
    | .top => nat32 0
    | .away => nat32 1
    | .value v => nat32 v)

/-- An announced STOP: its tag, the count of its origins as one byte, and the origins (log 21). -/
def announcedBytes : Option Announced → List Byte
  | none => [255, 255]
  | some a =>
    nat8 a.tag ++ counted (a.order.sources.map fun c => nat8 c.code ++ optNat8 c.lay?)

/-- View SLOT (Figure 30). The number of waiting orders, to which the spec gives no range, is sent as one byte, modulo 256 (log 21). -/
def viewSlot (x : Slot) : List Byte :=
  orAbsent 11 (x.config.map configBytes) ++ nat8 x.state.code ++ orAbsent 1 (x.caps.map fun c => [capsByte c]) ++
    orAbsent 10 (x.inFlight.map fun i => nat8 i.tag ++ orderBytes i.order ++ nat16 i.left) ++ announcedBytes x.announced ++
    counted (x.posted.map orderBytes) ++ nat8 x.waiting.length ++ optNat8 (x.lampPending.map lampIndex) ++ nat8 x.nextTag ++
    positionBytes x.position ++ orAbsent 2 (x.guard.map fun g => flagOne g.isOpen ++ flagOne g.locked) ++ flagOne x.drive ++
    nat8 (lampIndex x.lamp) ++ withPresence 1 (x.faultCode.map fun c => [c])

/-- The move in flight: source, destination and lay (R86); of two, the one furthest downstream (log 48). -/
def State.moveInFlight (s : State) : Option ((ZoneId × ZoneId) × Nat) :=
  moves.findSome? fun m => (s.zone m.2).reservation.map fun n => (m, n)

/-- View ZONES (R86). -/
def viewZones (s : State) : List Byte :=
  ([ZoneId.lift, .jog, .buffer, .table].flatMap fun i => optNat8 (s.zone i).occupant ++ optNat8 (s.zone i).reservation) ++
    (moves.flatMap fun m => flagOne (s.requestLay m).isSome) ++ flagOne s.moverFree ++
    orAbsent 3 (s.moveInFlight.map fun m => nat8 (zoneIndex m.1.1) ++ nat8 (zoneIndex m.1.2) ++ nat8 m.2) ++
    optNat8 s.headUnpresented

def jobBytes (e : JobEntry) : List Byte :=
  nat16 e.job ++ nat8 e.program ++ nat32 e.defaultX ++ nat32 e.defaultY ++ nat8 e.press ++ nat8 e.mode.code ++ nat16 e.jogTime ++
    flagOne e.pinned

/-- View JOB: the entry and its place in the recency order (R68). -/
def viewJob (s : State) (e : JobEntry) : List Byte :=
  jobBytes e ++ nat8 (s.intake.jobs.findIdx fun f => decide (f.job = e.job))

/-- View JOBS (R68). -/
def viewJobs (s : State) : List Byte := counted (s.intake.jobs.map fun e => nat16 e.job ++ flagOne e.pinned)

/-- The live lays that name a program, oldest first (R51). -/
def State.boundLays (s : State) (p : Nat) : List Nat :=
  s.order.filter fun n => (s.lay? n).any fun l => decide (l.program = some p)

/-- View PROGRAM (R51); "empty" is sent as a list of no steps (log 21). -/
def viewProgram (s : State) (p : Nat) : List Byte :=
  counted (((s.program p).getD []).map stepBytes) ++ counted ((s.boundLays p).map nat8)

/-- View EVENTS (R158). -/
def viewEvents (s : State) : List Byte :=
  (s.events.kinds.flatMap fun r =>
    nat8 r.cls.code ++ flagOne r.notice ++ nat16 r.counter ++ flagOne r.flag ++ flagOne r.owed.isSome) ++
    haltCauseBytes s.events.haltCause ++ orAbsent 6 (s.events.deferred.map fun d => eventBytes d.kind (.lay d.lay) d.detail)

/-- The time on the gate's running timer: left on the window, elapsed on the stroke timer (R108). -/
def Gate.timeShown (g : Gate) : Option Nat :=
  match g.state with
  | .opened => g.window
  | .stroke => g.timer.map StrokeTimer.elapsed
  | .closed | .lockedOut => none

/-- The failing permit conditions while a lay is in STROKING with the gate CLOSED (R108, Figure 61). -/
def State.failing (s : State) : Option Nat :=
  s.strokingLay.bind fun n => (s.lay? n).map fun l => presenceSet ((s.permitConditions n l).map not)

/-- View GATE (R108). -/
def viewGate (s : State) : List Byte :=
  nat8 s.gate.state.code ++ orAbsent 3 (s.gate.permit.map fun p => nat8 p.lay ++ nat8 p.step ++ nat8 p.tag) ++
    optNat16 s.gate.timeShown ++ nat32 s.gate.permits ++ nat32 s.gate.strokes ++ nat32 s.gate.wear ++ flagOne s.gate.wearReported ++
    withPresence 2 (s.gate.lastStroke.map nat16) ++ withPresence 2 (s.gate.longestStroke.map nat16) ++
    clampBytes s.seq.clamp ++ gaugeBytes s.seq.gauge ++
    orAbsent 10 (s.seq.inHand.map fun p => nat8 p.lay ++ nat8 p.cls.code ++ nat32 p.depth ++ nat32 p.width) ++
    withPresence 1 (s.failing.map nat8)

def pieceBytes (p : Piece) : List Byte :=
  nat8 p.lay ++ nat8 p.cls.code ++ nat32 p.depth ++ nat32 p.width ++ nat8 p.kind.code ++ nat8 (destinationIndex p.destination) ++
    flagOne p.posted

/-- View DELIVERY_HEAD (R141, R191). -/
def viewDeliveryHead (s : State) : List Byte :=
  nat8 s.delivery.records.length ++ orAbsent 17 (s.delivery.records.head?.map summaryBytes) ++
    counted (s.delivery.finishQueue.map nat8) ++ flagOne s.delivery.toggleB ++ counted (s.delivery.pieces.map pieceBytes)

def rxBytes (r : RxFlags) : List Byte :=
  flagOne r.check ++ flagOne r.framing ++ flagOne r.length ++ flagOne r.overrun ++ flagOne r.sum

/-- The statistics of each port in the order of Figure 47. -/
def uStatBytes (t : UStats) : List Byte :=
  [t.good, t.checkFailures, t.formatFailures, t.tickets, t.requests, t.requestOverruns, t.directsAccepted, t.directsRefused,
    t.directOverruns, t.replies, t.notices, t.copies, t.copiesDropped, t.lockLosses].flatMap nat32

def sStatBytes (t : SStats) : List Byte :=
  [t.good, t.checkFailures, t.formatFailures, t.reports, t.unknownNode, t.orders, t.lockLosses].flatMap nat32

/-- View LINK (R184). -/
def viewLink (s : State) : List Byte :=
  let u := s.link
  flagOne u.uLock ++ rxBytes u.uFlags ++ uStatBytes u.uStats ++ flagOne u.ringUp ++ rxBytes u.sFlags ++ sStatBytes u.sStats ++
    nat8 u.credit ++ nat8 u.answers.length ++ nat8 u.copies.length ++ nat8 u.output.length

end Sys2Proof.Machine
end

