-- ==== Sys2Proof/Machine/Requests.lean ====
section
/-! DEFINITION. What each management request does and how it is answered (spec file 11, and the rules of Figure 50's last
column). -/

namespace Sys2Proof.Machine

/-- The result codes (Figure 49). -/
inductive Result where
  | ok
  | badRequest
  | badArg
  | badState
  | inUse
  | noRoom
  | notFound
  | fixedKind
  | notReady
  | empty
  deriving DecidableEq, Repr

def Result.code : Result → Byte
  | .ok => 0
  | .badRequest => 1
  | .badArg => 2
  | .badState => 3
  | .inUse => 4
  | .noRoom => 5
  | .notFound => 6
  | .fixedKind => 7
  | .notReady => 8
  | .empty => 9

/-- What the execution of a request comes to: the state after its event, its result and its body. -/
structure Answer where
  state : State
  result : Result
  body : List Byte

/-- A request answered without a change of state (R188). -/
def refuse (r : Result) (s : State) : Answer := ⟨s, r, []⟩

/-- A request taken: its effect and everything it leads to in its event, then the reply OK. -/
def accept (e : Effect) : Answer := ⟨complete e, .ok, []⟩

/-- A view's reply. -/
def reading (s : State) (body : List Byte) : Answer := ⟨s, .ok, body⟩

/-! ### READ (R191) -/

def readView (view : Byte) (arg : BitVec 16) (clear : Bool) (s : State) : Answer :=
  let n := arg.toNat
  match view.toNat with
  | 0 => reading s (viewCell s)
  | 1 =>
    if 8 ≤ n then refuse .badArg s
    else match s.lay? n with
      | some l => reading s (viewLay l)
      | none => refuse .notFound s
  | 2 => if 12 ≤ n then refuse .badArg s else reading s (viewSlot (s.slot n))
  | 3 => reading s (viewZones s)
  | 4 =>
    if n = 0 then refuse .badArg s
    else match s.job? n with
      | some e => reading s (viewJob s e)
      | none => refuse .notFound s
  | 5 => reading s (viewJobs s)
  | 6 => if 64 ≤ n then refuse .badArg s else reading s (viewProgram s n)
  | 7 => reading s (viewEvents s)
  | 8 => reading s (viewGate s)
  | 9 => ⟨s, if s.delivery.records = [] then .empty else .ok, viewDeliveryHead s⟩
  | 10 =>
    ⟨if clear then s.setLink { s.link with uFlags := .clear, sFlags := .clear } else s, .ok, viewLink s⟩
  | _ => refuse .badArg s

/-! ### LOAD_CELL (R169) -/

/-- The cell is in OFF, STANDBY or HALTED. -/
def State.resting (s : State) : Bool :=
  decide (s.cell.state = .off) || decide (s.cell.state = .standby) || decide (s.cell.state = .halted)

/-- A carried value replaces a kept one. -/
def carried (v : Option (BitVec 32)) (kept : Nat) : Nat := (v.map BitVec.toNat).getD kept

/-- The parameters after a LOAD_CELL. -/
def CellParams.load (c : CellLoad) (p : CellParams) : CellParams where
  gaugeMin := carried c.gaugeMin p.gaugeMin
  gaugeMax := carried c.gaugeMax p.gaugeMax
  tableWidth := carried c.tableWidth p.tableWidth
  clampMaxH := carried c.clampMaxH p.clampMaxH
  fillTime := carried c.fillTime p.fillTime
  permitWindow := carried c.permitWindow p.permitWindow
  strokeTime := carried c.strokeTime p.strokeTime
  probeTimeout := carried c.probeTimeout p.probeTimeout
  idlePark := carried c.idlePark p.idlePark
  wakeSettle := carried c.wakeSettle p.wakeSettle
  knifeWearLimit := carried c.knifeWearLimit p.knifeWearLimit

/-- Every parameter in its range of Figure 42, GAUGE_MIN no greater than GAUGE_MAX. -/
def CellParams.ok (p : CellParams) : Bool :=
  within 0 400000 p.gaugeMin && within 1 400000 p.gaugeMax && within 1 400000 p.tableWidth && within 1 400000 p.clampMaxH &&
    within 1 600000 p.fillTime && within 1 10000 p.permitWindow && within 1 60000 p.strokeTime && within 1 10000 p.probeTimeout &&
    within 0 3600000 p.idlePark && within 0 60000 p.wakeSettle && decide (p.gaugeMin ≤ p.gaugeMax)

def doLoadCell (c : CellLoad) (s : State) : Answer :=
  let p := s.cell.params.load c
  if s.resting = false then refuse .badState s
  else if p.ok = false then refuse .badArg s
  else
    let worn := s.gate.wearReported && decide (p.knifeWearLimit = s.cell.params.knifeWearLimit)
    accept ({ s with cell := { s.cell with params := p }, gate := { s.gate with wearReported := worn } }, [])

/-! ### LOAD_SLOT (R130, R192) -/

def buttonOf : Nat → Option ButtonAction
  | 0 => some .none
  | 1 => some .stopCell
  | 2 => some .notify
  | _ => none

def lampModeOf : Nat → Option LampMode
  | 0 => some .auto
  | 1 => some (.fixed .off)
  | 2 => some (.fixed .on)
  | 3 => some (.fixed .blink)
  | _ => none

/-- The configuration a LOAD_SLOT carries, where every field is in its range (R192, checks 2 and 3). -/
def slotConfigOf (c : SlotLoad) : Option SlotConfig :=
  match stationKindOf c.kind.toNat, buttonOf c.button.toNat, lampModeOf c.lamp.toNat with
  | some kind, some button, some lamp =>
    if within 1 30 c.node.toNat && within 1 60000 c.timeout.toNat && decide (c.permitted.toNat < 262144) then
      some { kind := kind, node := c.node.toNat, timeout := c.timeout.toNat, button := button, lamp := lamp,
             forward := c.forward, permitted := c.permitted, removable := c.removable }
    else none
  | _, _, _ => none

/-- Another configured slot holds the node address (R192, check 4). -/
def State.nodeTaken (s : State) (k node : Nat) : Bool :=
  s.slots.zipIdx.any fun p => decide (p.2 ≠ k) && p.1.config.any fun c => decide (c.node = node)

/-- An accepted LOAD_SLOT: the slot's work ends as dropped, its frames are withdrawn, then the configuration is written (R130). -/
def loadSlot (k : Nat) (c : Option SlotConfig) (s : State) : Effect :=
  let x := s.slot k
  ((s.withdraw k x.tags).setSlot k x.cleared, x.droppedTasks k ++ [.writeSlot k c])

def doLoadSlot (slot : Byte) (config : Option SlotLoad) (s : State) : Answer :=
  let k := slot.toNat
  if s.cell.state ≠ .off ∧ s.cell.state ≠ .standby then refuse .badState s
  else if 12 ≤ k then refuse .badArg s
  else match config with
    | none => accept (loadSlot k none s)
    | some load =>
      match slotConfigOf load with
      | none => refuse .badArg s
      | some c => if s.nodeTaken k c.node then refuse .badArg s else accept (loadSlot k (some c) s)

/-! ### LOAD_SEVERITY and CLEAR_EVENTS (R153 to R155) -/

def classOfCode : Nat → Option EventClass
  | 0 => some .ignore
  | 1 => some .note
  | 2 => some .advisory
  | 3 => some .lay
  | 4 => some .cell
  | _ => none

/-- A notice bit turned off withdraws the owed notice (R153). -/
def KindRecord.setNotice (on : Bool) (r : KindRecord) : KindRecord :=
  { r with notice := on, owed := if on then r.owed else none }

def KindRecord.load (cls : Option EventClass) (notice : Option Bool) (r : KindRecord) : KindRecord :=
  let r' := { r with cls := cls.getD r.cls }
  match notice with
  | some on => r'.setNotice on
  | none => r'

def doLoadSeverity (kind : Byte) (cls : Option Byte) (notice : Option Bool) (s : State) : Answer :=
  let i := kind.toNat
  let change := fun (c : Option EventClass) =>
    accept ({ s with events := s.events.modifyKind i (KindRecord.load c notice) }, [])
  if 32 ≤ i then refuse .badArg s
  else match cls with
    | none => change none
    | some code =>
      match classOfCode code.toNat with
      | none => refuse .badArg s
      | some c =>
        if c = (s.events.kindAt i).cls then change none
        else if fixedKind i then refuse .fixedKind s
        else if c = .note then refuse .badArg s
        else change (some c)

/-- The listed flags and counters of one kind are cleared (R154). -/
def KindRecord.clear (flag counter : Bool) (r : KindRecord) : KindRecord :=
  { r with flag := r.flag && !flag, counter := if counter then 0 else r.counter }

def doClearEvents (flags counters : BitVec 32) (s : State) : Answer :=
  accept ({ s with events := { s.events with
      kinds := s.events.kinds.zipIdx.map fun p => p.1.clear (flags.getLsbD p.2) (counters.getLsbD p.2) } }, [])

/-! ### Programs (R29 to R32) -/

/-- The step a code and its argument spell, the argument within its kind's range (Figure 11, spec file 12). -/
def stepOfRaw (r : RawStep) : Option Step :=
  let v := r.arg.toNat
  match r.code.toNat with
  | 1 => if within 1 400000 v then some (.trim v) else none
  | 2 => if within 1 400000 v then some (.strip v) else none
  | 3 => if v ≤ 400000 then some (.cutAt v .block) else none
  | 4 => if v ≤ 400000 then some (.cutAt v .waste) else none
  | 5 => if within 1 400000 v then some (.fit v) else none
  | 6 => if v ≤ 255 then some (.repeatNext v) else none
  | 7 => if within 1 3 v then some (.turn v) else none
  | 8 => if v = 0 then some .invert else none
  | 9 => if within 1 8 v then some (.press v) else none
  | 10 => if v ≤ 255 then some (.note v) else none
  | 11 => if v = 0 then some .pause else none
  | 12 => if v = 0 then some (.endProgram .block) else none
  | 13 => if v = 0 then some (.endProgram .waste) else none
  | 14 => if v = 0 then some (.endProgram .auto) else none
  | _ => none

/-- END stands last and nowhere else (R27). -/
def endsOnce : List Step → Bool
  | [] => false
  | [st] => st.isEnd
  | st :: rest => !st.isEnd && endsOnce rest

/-- The program a LOAD_PROGRAM's list makes, where every check of R29 but the last passes. -/
def programOf (steps : List RawStep) : Option (List Step) :=
  if within 1 40 steps.length then (steps.mapM stepOfRaw).filter endsOnce else none

/-- The slot holds steps and a live lay names it (R30). -/
def State.protectedProgram (s : State) (p : Nat) : Bool :=
  (s.program p).isSome && s.lays.any fun l => l.any fun l => decide (l.program = some p)

def State.setProgram (s : State) (p : Nat) (steps : Option (List Step)) : State :=
  { s with programs := s.programs.set p steps }

def doLoadProgram (program : Byte) (steps : List RawStep) (s : State) : Answer :=
  let p := program.toNat
  if 64 ≤ p then refuse .badArg s
  else match programOf steps with
    | none => refuse .badArg s
    | some list => if s.protectedProgram p then refuse .inUse s else accept (s.setProgram p (some list), [])

def doEraseProgram (program : Byte) (s : State) : Answer :=
  let p := program.toNat
  if 64 ≤ p then refuse .badArg s
  else if s.protectedProgram p then refuse .inUse s
  else accept (s.setProgram p none, [])

/-! ### Jobs (R58 to R61) -/

def modeOf : Nat → Option DeliveryMode
  | 0 => some .beltA
  | 1 => some .beltB
  | 2 => some .alternate
  | _ => none

/-- The entry a LOAD_JOB carries, where every field is in its range (R58). -/
def jobEntryOf (j : JobLoad) : Option JobEntry :=
  match modeOf j.mode.toNat with
  | none => none
  | some mode =>
    let e : JobEntry := {
      job := j.job.toNat, program := j.program.toNat, defaultX := j.defaultX.toNat, defaultY := j.defaultY.toNat
      press := j.press.toNat, mode := mode, jogTime := j.jogTime.toNat, pinned := j.pinned }
    if within 1 65535 e.job && within 0 63 e.program && within 1 400000 e.defaultX && within 1 400000 e.defaultY &&
        within 1 8 e.press && within 0 30000 e.jogTime then some e
    else none

/-- The list without its last unpinned entry; none where every entry is pinned (R59). -/
def evict : List JobEntry → Option (List JobEntry)
  | [] => none
  | e :: rest =>
    match evict rest with
    | some rest' => some (e :: rest')
    | none => if e.pinned then none else some rest

/-- The map with the entry written as most recent; none where there is no room (R59). -/
def Intake.write (e : JobEntry) (i : Intake) : Option Intake :=
  if i.jobs.any (fun f => decide (f.job = e.job)) || decide (i.jobs.length < 32) then some (i.toFront e)
  else (evict i.jobs).map fun jobs => { i with jobs := e :: jobs }

def doLoadJob (j : JobLoad) (s : State) : Answer :=
  match jobEntryOf j with
  | none => refuse .badArg s
  | some e =>
    match s.intake.write e with
    | none => refuse .noRoom s
    | some i => accept ({ s with intake := i }, (s.awaitingJobOf e.job).map fun n => .bind n e)

def doDropJob (job : BitVec 16) (s : State) : Answer :=
  let j := job.toNat
  if j = 0 then refuse .badArg s
  else match s.job? j with
    | none => refuse .notFound s
    | some _ =>
      accept ({ s with intake := { s.intake with jobs := s.intake.jobs.filter fun e => decide (e.job ≠ j) } }, [])

/-! ### CELL_CONTROL (R193) -/

/-- PROBE (R160). -/
def doProbe (s : State) : Answer :=
  if s.cell.state = .off ∨ s.cell.state = .standby then accept (s.probe fun _ => true, [.enter .probing]) else refuse .badState s

/-- START (R161). -/
def doStart (s : State) : Answer :=
  if s.cell.state ≠ .standby then refuse .badState s
  else if s.kindsReady && s.guardClosed && decide (s.gate.state ≠ .lockedOut) then
    accept (s, .enter .starting :: s.startingOrders)
  else refuse .notReady s

/-- STOP (R163). -/
def doStop (s : State) : Answer :=
  if s.cell.state = .running then accept (s, [.enter .stopping])
  else if s.cell.state = .stopping then accept (s, [])
  else refuse .badState s

/-- The gate's lock-out is cleared (R102). -/
def Gate.unlock (g : Gate) : Gate := if g.state = .lockedOut then { g with state := .closed } else g

/-- ACK_HALT (R165). -/
def doAckHalt (s : State) : Answer :=
  let s' := { s with gate := s.gate.unlock }
  if s.guardOpen then refuse .notReady s
  else match s.cell.state with
    | .halted => accept (s', [.enter .standby])
    | .off | .probing | .standby => accept (s', [])
    | _ => refuse .badState s

/-- RETRAIN (R120). -/
def doRetrain (s : State) : Answer :=
  accept (s.probe fun x => decide (x.state = .absent) || decide (x.state = .faulted), [])

/-- RESET_WEAR (R103). -/
def doResetWear (s : State) : Answer := accept ({ s with gate := { s.gate with wear := 0, wearReported := false } }, [])

/-- A slot at its cell-reset value (R128). -/
def Slot.cellReset (x : Slot) : Slot :=
  match x.config with
  | none => x
  | some c =>
    let y := { x.cleared.toAbsent with lampPending := none }
    if c.lamp = .auto then y.want .blink else y

/-- The answers of the DIRECT orders a reset clears from a slot (R128, R185): the order in flight, the announced STOP, the posted and
the waiting orders, in this order (log 41). -/
def Slot.directAnswers (x : Slot) : List UFrame :=
  x.orders.flatMap fun o => o.sources.filterMap fun c => match c with
    | .direct tag => some (directAnswer ((x.config.map SlotConfig.node).getD 0) tag (.refused .aborted))
    | _ => none

/-- Every block at its cell-reset value (R25, R67, R85, R107, R128, R140, R157, R170, R185); the halt cause goes with the entry into
OFF. Every frame of the output list is that of a cleared order and is withdrawn (R181, log 43); the DIRECT orders cleared are answered
slot by slot in slot-number order (log 41). -/
def cellReset (s : State) : State :=
  { s with
    agenda := []
    link := { s.link with output := [], answers := s.link.answers ++ s.slots.flatMap Slot.directAnswers }
    intake := { s.intake with tickets := [], fill := none }
    lays := List.replicate 8 none
    order := []
    zones := ⟨.free, .free, .free, .free⟩
    seq := ⟨.unknown, .unknown, none, none⟩
    gate := { s.gate with state := .closed, permit := none, window := none, timer := none }
    slots := s.slots.map Slot.cellReset
    delivery := { s.delivery with pieces := [], finishQueue := [] }
    events := { s.events with deferred := none }
    cell := { s.cell with idle := none, settle := none, lockWait := none, wakeWanted := false } }

/-- CELL_RESET (R170). -/
def doCellReset (s : State) : Answer :=
  if s.resting then accept (cellReset s, [.enter .off]) else refuse .badState s

/-- An action code (Figure 59, R193). -/
def cellControl (action : Byte) (s : State) : Answer :=
  match action.toNat with
  | 0 => doProbe s
  | 1 => doStart s
  | 2 => doStop s
  | 3 => doAckHalt s
  | 4 => doRetrain s
  | 5 => doResetWear s
  | 6 => doCellReset s
  | _ => refuse .badArg s

/-! ### LAY_CONTROL (R18 to R23) -/

/-- HOLD (R18); a lay in the finish queue is answered BAD_STATE (R137), also where it is HELD (log 53). -/
def doHold (n : Nat) (l : Lay) (s : State) : Answer :=
  if n ∈ s.delivery.finishQueue ∨ l.state = .draining ∨ l.state = .finishing ∨ (l.state = .moving ∧ s.lowering n l) ∨
      (l.state = .cutting ∧ l.phase = some .pushing) ∨ l.abandonWanted then refuse .badState s
  else if l.state = .held ∨ l.holdWanted then accept (s, [])
  else if l.state = .awaitJob ∨ l.state = .queued ∨ l.state = .waiting then accept (s.hold n .requested, [])
  else accept (s.updateLay n fun l => { l with holdWanted := true }, [])

/-- RELEASE (R19). -/
def doRelease (n : Nat) (l : Lay) (s : State) : Answer :=
  if l.state = .held then accept (startRelease n l s) else refuse .badState s

/-- An abandon of a lay that may be abandoned (R21 to R23): taken at once where the lay is at rest or HELD with no move under
way, else wanted. -/
def startAbandon (n : Nat) (l : Lay) (s : State) : Effect :=
  if s.lowering n l then (s, [])
  else if l.eff = .moving then (s.updateLay n fun l => { l with abandonWanted := true }, [])
  else if l.state = .held ∨ l.state = .awaitJob ∨ l.state = .queued ∨ l.state = .waiting then takeAbandon n s
  else (s.updateLay n fun l => { l with abandonWanted := true }, [])

/-- ABANDON (R21 to R23). -/
def doAbandon (n : Nat) (l : Lay) (s : State) : Answer :=
  if l.eff = .finishing ∨ l.eff = .draining ∨ (l.state = .cutting ∧ l.phase = some .pushing) then refuse .badState s
  else accept (startAbandon n l s)

/-- The lay number's range, the record being live, then the action (R189, log 22). -/
def layControl (lay action : Byte) (s : State) : Answer :=
  let n := lay.toNat
  if 8 ≤ n then refuse .badArg s
  else match s.lay? n with
    | none => refuse .notFound s
    | some l =>
      match action.toNat with
      | 0 => doHold n l s
      | 1 => doRelease n l s
      | 2 => doAbandon n l s
      | _ => refuse .badArg s

/-! ### TAKE_DELIVERY (R139) -/

def doTakeDelivery (s : State) : Answer :=
  match s.delivery.records with
  | [] => refuse .empty s
  | r :: rest =>
    ⟨complete (({ s with delivery := { s.delivery with records := rest } }).finishQueued, []), .ok, summaryBytes r⟩

/-! ### Execution (R187 to R189) -/

/-- A request that parses is carried out. -/
def carryOut (r : Request) (s : State) : Answer :=
  match r with
  | .echo data => reading s data
  | .read view arg clear => readView view arg clear s
  | .loadCell values => doLoadCell values s
  | .loadSlot slot config => doLoadSlot slot config s
  | .loadSeverity kind cls notice => doLoadSeverity kind cls notice s
  | .loadProgram program steps => doLoadProgram program steps s
  | .eraseProgram program => doEraseProgram program s
  | .loadJob entry => doLoadJob entry s
  | .dropJob job => doDropJob job s
  | .cellControl action => cellControl action s
  | .layControl lay action => layControl lay action s
  | .takeDelivery => doTakeDelivery s
  | .clearEvents flags counters => doClearEvents flags counters s

/-- The request's answer; one that does not parse is answered BAD_REQUEST (R198). -/
def answerOf (payload : List Byte) (s : State) : Answer :=
  match parseRequest payload with
  | some r => carryOut r s
  | none => refuse .badRequest s

/-- The REPLY: the request code as received, the result, the body (R188, spec file 12). -/
def replyFrame (tag : Byte) (payload : List Byte) (result : Result) (body : List Byte) : UFrame where
  kind := .reply
  address := 0
  tag := tag
  payload := payload.headD 0 :: result.code :: body

/-- A REPLY waits in the answer list (R187). -/
def State.replyWaits (s : State) : Bool := s.link.answers.any fun f => decide (f.kind = .reply)

/-- The head request is executed and its REPLY joins the answer list (R187). -/
def executeHead (e : MgmtEntry) (s : State) : State :=
  let a := answerOf e.payload s
  a.state.answer (replyFrame e.tag e.payload a.result a.body)

/-- The Management Unit executes while a request waits and no REPLY does; the transmitter may take each REPLY at once (R187). -/
def pump : Nat → State → State
  | 0, s => s
  | fuel + 1, s =>
    match s.mgmt with
    | [] => s
    | e :: rest =>
      if s.replyWaits then s else pump fuel (takeFrame (executeHead e { s with mgmt := rest }))

/-- The U-port transmitter takes what it may, and the Management Unit what it may. -/
def pumpAll (s : State) : State := pump 8 (takeFrame s)

/-- A good MGMT frame joins the queue, or is an overrun (R175, R186). -/
def queueRequest (tag : Byte) (payload : List Byte) (s : State) : State :=
  let s1 := s.goodFrame .u
  if s1.mgmt.length < 4 then
    { s1.countU fun t => { t with requests := bump32 t.requests } with mgmt := s1.mgmt ++ [⟨tag, payload⟩] }
  else
    let s2 := s1.countU fun t => { t with requestOverruns := bump32 t.requestOverruns }
    event (fun s => (s.setLink { s.link with uFlags := s.link.uFlags.markOverrun }, [.raise .linkOverrun .none (portDetail .u)])) s2

/-- A MGMT frame arrives; none is received while the U-port has no lock (log 7). -/
def mgmtArrives (tag : Byte) (payload : List Byte) (s : State) : State :=
  unlessReset (fun s => if s.link.uLock = false then s else pumpAll (queueRequest tag payload s)) s

end Sys2Proof.Machine
end

