-- ==== Sys2Proof/Machine/Frames.lean ====
section
/-! DEFINITION. The commands received on the U-port, and frames that fail a check on either port (R173, R175 to R178). -/

namespace Sys2Proof.Machine

/-! ### DIRECT (R176 to R178) -/

/-- Whether an order is a common order, or else the station kind whose action it is (Figure 31). -/
def actionKind : OrderKind → Option StationKind
  | .ident | .enable _ | .lamp _ | .stop => none
  | .present _ | .lower => some .lift
  | .jog _ => some .jog
  | .moveLay _ _ => some .xfer
  | .move _ | .pushOut => some .gauge
  | .clamp _ | .release => some .clamp
  | .stroke => some .knife
  | .rotate _ | .invert => some .turn
  | .deliver _ => some .out
  | .lock | .unlock => some .guard

/-- The cell states in which action orders are barred (R177). -/
def CellState.barsActions : CellState → Bool
  | .starting | .running | .stopping | .waking => true
  | .off | .probing | .standby | .halted | .parking | .parked => false

/-- The tests of R177 in their order: none where the DIRECT is accepted. -/
def directRefusal (o : OrderKind) (x : Slot) (st : CellState) : Option DirectResult :=
  if x.state ≠ .ready then some .notPermitted
  else if (actionKind o).any fun k => !x.isKind k then some .notPermitted
  else if o = .stroke ∨ o = .ident then some .notPermitted
  else if (x.config.any fun c => c.permitted.getLsbD (orderCode o)) = false then some .notPermitted
  else if (actionKind o).isSome && st.barsActions then some .notPermitted
  else if 4 ≤ x.posted.length then some .queueFull
  else none

/-- A DIRECT posted to the CLAMP or GAUGE slot makes its record UNKNOWN (R88, R178). -/
def State.directRecords (s : State) (k : Nat) : State :=
  let s' := if s.working .clamp = some k then s.setClamp .unknown else s
  if s.working .gauge = some k then s'.setGauge .unknown else s'

/-- A DIRECT refused is answered in its arrival event (R177). -/
def refuseDirect (node : Nat) (tag : Byte) (r : DirectResult) (s : State) : State :=
  (s.countU fun t => { t with directsRefused := bump32 t.directsRefused }).answer (directAnswer node tag r)

/-- A good DIRECT frame (R176, R177, R178). -/
def takeDirect (node : Nat) (tag : Byte) (o : OrderKind) (s : State) : Effect :=
  if 16 ≤ s.link.credit then
    let s' := s.countU fun t => { t with directOverruns := bump32 t.directOverruns }
    (s'.setLink { s'.link with uFlags := s'.link.uFlags.markOverrun }, [.raise .linkOverrun .none (portDetail .u)])
  else
    let s' := s.setLink { s.link with credit := s.link.credit + 1 }
    match s.slotAt node with
    | none => (refuseDirect node tag .notPermitted s', [])
    | some k =>
      match directRefusal o (s.slot k) s.cell.state with
      | some r => (refuseDirect node tag r s', [])
      | none =>
        ((s'.countU fun t => { t with directsAccepted := bump32 t.directsAccepted }).directRecords k,
          [.post k ⟨o, [.direct tag]⟩])

/-! ### Arrival -/

/-- Whether the port can receive at all (R123, R183, log 7). -/
def State.receives (s : State) : Port → Bool
  | .u => s.link.uLock
  | .s => s.link.ringUp

/-- A TICKET is handed to Ticket Intake (R175). -/
def routeTicket (t : Ticket) (s : State) : Effect :=
  takeTicket t ((s.goodFrame .u).countU fun u => { u with tickets := bump32 u.tickets })

/-- A received frame as the receiver finds it (R173, R175, R179). -/
def frameArrives (port : Port) (r : Received) (s : State) : State :=
  unlessReset (fun s =>
    if s.receives port = false then s
    else match r with
      | .rejected check flag => event (rejectFrame port check flag) s
      | .ticket t => event (routeTicket t) s
      | .mgmt tag payload => mgmtArrives tag payload s
      | .direct node tag o => event (fun s => takeDirect node tag o (s.goodFrame .u)) s
      | .report node tag rep => reportArrives node tag rep s) s

/-- BAD_FRAME (R173): the bytes of a frame as they were received; the first check that fails decides. -/
def execBadFrame (port : Port) (whole : Bool) (bytes : List Byte) (s : State) : Host.Outcome State Fault Refusal :=
  .next (frameArrives port (receive port whole bytes) s)

/-- TICKET (R175): a ticket with a field out of range fails check 6 (R52, log 30). -/
def execTicket (t : Ticket) (s : State) : Host.Outcome State Fault Refusal :=
  .next (frameArrives .u (if ticketInRange t then .ticket t else .rejected 6 none) s)

/-- A MGMT frame with a payload: no byte fails check 5, more than 240 fail check 3 (R173, log 30). -/
def mgmtFrame (tag : Byte) (payload : List Byte) : Received :=
  if payload = [] then .rejected 5 (some .length)
  else if 240 < payload.length then .rejected 3 (some .length)
  else .mgmt tag payload

/-- MGMT (R186). -/
def execMgmt (tag : Byte) (payload : List Byte) (s : State) : Host.Outcome State Fault Refusal :=
  .next (frameArrives .u (mgmtFrame tag payload) s)

/-- DIRECT (R177): an address outside 1..30 or an argument out of range fails check 6 (log 30). -/
def execDirect (node : Nat) (tag : Byte) (order : OrderKind) (s : State) : Host.Outcome State Fault Refusal :=
  .next (frameArrives .u
    (if within 1 30 node && orderInRange order then .direct node tag order else .rejected 6 none) s)

end Sys2Proof.Machine
end

