-- ==== Sys2Proof/Machine/Lines.lean ====
section
/-! DEFINITION. The commands of the links' conditions: lock gained and lost, the ring up and down, the end of a frame being sent
(R123, R181 to R183). -/

namespace Sys2Proof.Machine

/-- U_PORT_LOCK_GAINED (R183): the transmitter may take a frame, and the Management Unit a request. -/
def execUPortLockGained (s : State) : Host.Outcome State Fault Refusal :=
  .next (unlessReset (fun s => if s.link.uLock then s else pumpAll (s.setLink { s.link with uLock := true })) s)

/-- The U-port loses lock: the frame being sent is cut off (R183). -/
def loseLock (s : State) : State :=
  (s.countU fun t => { t with lockLosses := bump32 t.lockLosses }).setLink
    { (s.countU fun t => { t with lockLosses := bump32 t.lockLosses }).link with uLock := false, sending := none }

/-- U_PORT_LOCK_LOST (R183): a frame being received is cut off and fails check 1 (R173, log 23). -/
def execUPortLockLost (receiving : Bool) (s : State) : Host.Outcome State Fault Refusal :=
  .next (unlessReset (fun s =>
    if s.link.uLock = false then s
    else if receiving then event (fun s => rejectFrame .u 1 (some .framing) (loseLock s)) s
    else loseLock s) s)

/-- RING_UP (R123): no slot changes. -/
def execRingUp (s : State) : Host.Outcome State Fault Refusal :=
  .next (unlessReset (fun s => s.setLink { s.link with ringUp := true }) s)

/-- The ring goes DOWN: every configured slot goes to ABSENT, the orders lost are handed over, then STATION_LOST for each slot
that was READY (R123, R181). The hand-overs go in slot-number order (log 40), and the LINK_CHECK of a frame that was being received is
taken before them (log 23). -/
def ringFalls (receiving : Bool) (s : State) : Effect :=
  let s1 := s.countS fun t => { t with lockLosses := bump32 t.lockLosses }
  let s2 := s1.setLink { s1.link with ringUp := false, leaving := none, output := [] }
  let cut := if receiving then rejectFrame .s 1 (some .framing) s2 else (s2, [])
  ({ cut.1 with slots := s.slots.map fun x => if x.config.isSome then x.toAbsent else x },
    cut.2 ++ (s.slots.zipIdx.flatMap fun p => p.1.lostTasks p.2) ++
      (s.slotsWhere fun x => decide (x.state = .ready)).map fun k => .raise .stationLost (.slot k) 1)

/-- RING_DOWN (R123). -/
def execRingDown (receiving : Bool) (s : State) : Host.Outcome State Fault Refusal :=
  .next (unlessReset (fun s => if s.link.ringUp then event (ringFalls receiving) s else s) s)

/-- The frame on the U-port ends (R182, R184). -/
def frameEnds (s : State) : State :=
  match s.link.sending with
  | none => s
  | some f => pumpAll ((s.countU (UStats.sent f.kind)).setLink
      { (s.countU (UStats.sent f.kind)).link with sending := none })

/-- U_PORT_FRAME_END (R182): the next frame is taken, and the Management Unit may execute. -/
def execUPortFrameEnd (s : State) : Host.Outcome State Fault Refusal := .next (unlessReset frameEnds s)

/-- ORDER_FRAME_END (R181). -/
def execOrderFrameEnd (s : State) : Host.Outcome State Fault Refusal := .next (unlessReset orderFrameEnds s)

end Sys2Proof.Machine
end

