-- ==== Sys2Proof/Machine/Timers.lean ====
section
/-! DEFINITION. The commands of the part's own time: timer expiries, the admission of a waiting ticket, and the step on an empty
command queue (logs 1 and 2). -/

namespace Sys2Proof.Machine

/-- FILL_TIMER_EXPIRY (R65). -/
def execFillTimerExpiry (s : State) : Host.Outcome State Fault Refusal := .next (unlessReset (event fillExpiry) s)

/-- An order's timer runs out: the order ends with a timeout, a READY slot is FAULTED (R115). -/
def orderExpiry (k : Nat) (s : State) : Effect :=
  let x := s.slot k
  match x.inFlight with
  | none => (s, [])
  | some i =>
    if i.order.kind = .ident then (s, [])
    else
      (s.endFlight k { x.clearFlight with state := if x.state = .ready then .faulted else x.state },
        endTasks k (some i.tag) i.order .timedOut)

/-- ORDER_TIMER_EXPIRY (R115). -/
def execOrderTimerExpiry (slot : Nat) (s : State) : Host.Outcome State Fault Refusal :=
  .next (unlessReset (event (orderExpiry slot)) s)

/-- The IDENT timer runs out: a PROBING slot is ABSENT, a FAULTED one stays FAULTED (R119, log 13). -/
def identExpiry (k : Nat) (s : State) : Effect :=
  let x := s.slot k
  if x.inFlight.any fun i => decide (i.order.kind = .ident) then
    if x.state = .probing then ((s.withdraw k x.tags).setSlot k x.toAbsent, ({ x with inFlight := none } : Slot).lostTasks k)
    else (s.endFlight k x.clearFlight, [])
  else (s, [])

/-- IDENT_TIMER_EXPIRY (R119). -/
def execIdentTimerExpiry (slot : Nat) (s : State) : Host.Outcome State Fault Refusal :=
  .next (unlessReset (event (identExpiry slot)) s)

/-- PERMIT_WINDOW_EXPIRY (R100). -/
def execPermitWindowExpiry (s : State) : Host.Outcome State Fault Refusal := .next (unlessReset (event windowExpiry) s)

/-- STROKE_TIMER_EXPIRY (R101). -/
def execStrokeTimerExpiry (s : State) : Host.Outcome State Fault Refusal := .next (unlessReset (event strokeExpiry) s)

/-- IDLE_TIMER_EXPIRY (R167). -/
def execIdleTimerExpiry (s : State) : Host.Outcome State Fault Refusal := .next (unlessReset (event idleExpiry) s)

/-- WAKE_SETTLE_EXPIRY (R168). -/
def execWakeSettleExpiry (s : State) : Host.Outcome State Fault Refusal := .next (unlessReset (event settleExpiry) s)

/-- LOCK_WAIT_EXPIRY (R162). -/
def execLockWaitExpiry (s : State) : Host.Outcome State Fault Refusal := .next (unlessReset (event lockWaitExpiry) s)

/-- ADMISSION (R54). -/
def execAdmission (s : State) : Host.Outcome State Fault Refusal := .next (unlessReset (event admitTicket) s)

/-! ### An empty command queue (log 1) -/

/-- A slot's order timer has run down. -/
def Slot.due (x : Slot) : Bool := x.inFlight.any fun i => decide (i.left = 0)

/-- The timer expiry or admission that is due now: the fill timer, the slots' order timers in slot-number order, the permit window,
the stroke timer, the idle, settle and lock wait timers, then the admission. -/
def dueEvent (s : State) : Option (State → Effect) :=
  if s.intake.fill.any fun f => decide (f.left = 0) then some fillExpiry
  else match s.slots.findIdx? Slot.due with
    | some k =>
      if (s.slot k).inFlight.any fun i => decide (i.order.kind = .ident) then some (identExpiry k) else some (orderExpiry k)
    | none =>
      if s.gate.window = some 0 then some windowExpiry
      else if s.gate.timer.any fun t => decide (t.limit ≤ t.elapsed) then some strokeExpiry
      else if s.cell.idle = some 0 then some idleExpiry
      else if s.cell.settle = some 0 then some settleExpiry
      else if s.cell.lockWait = some 0 then some lockWaitExpiry
      else if s.intake.tickets ≠ [] ∧ s.freeRecord.isSome then some admitTicket
      else none

/-- One millisecond passes on every running timer. -/
def passTime (s : State) : State :=
  { s with
    intake := { s.intake with fill := s.intake.fill.map fun f => { f with left := f.left - 1 } }
    slots := s.slots.map fun x => { x with inFlight := x.inFlight.map fun i => { i with left := i.left - 1 } }
    gate := { s.gate with
      window := s.gate.window.map (· - 1)
      timer := s.gate.timer.map fun t => { t with elapsed := t.elapsed + 1 } }
    cell := { s.cell with
      idle := s.cell.idle.map (· - 1)
      settle := s.cell.settle.map (· - 1)
      lockWait := s.cell.lockWait.map (· - 1) } }

/-- What the part does of itself: the event that is due, or one millisecond passes (log 1). -/
def idleStep (s : State) : State :=
  unlessReset (fun s =>
    match dueEvent s with
    | some e => event e s
    | none => passTime s) s

end Sys2Proof.Machine
end

