-- ==== Sys2Proof/Machine/Resets.lean ====
section
/-! DEFINITION. The commands that reset the whole part (R157, R170). -/

namespace Sys2Proof.Machine

/-- Every block at its power-on value, STARTED not yet taken; the model's own queue and counter of choices stand on. -/
def State.wiped (s : State) : State := { State.blank with pending := s.pending, choices := s.choices }

/-- STARTED is taken (R157). -/
def State.begun (detail : Nat) (s : State) : State := { s.wiped with events := .started detail }

/-- POWER_ON (R170), with RESET_N high (log 20). -/
def execPowerOn (s : State) : Host.Outcome State Fault Refusal := .next (s.begun 0)

/-- RESET_N_ASSERT (R170): every table holds its power-on value while RESET_N is low. -/
def execResetNAssert (s : State) : Host.Outcome State Fault Refusal := .next { s.wiped with resetHeld := true }

/-- RESET_N_RELEASE (R170): the part begins, STARTED owed with detail 1; no effect where RESET_N is not held low (log 20). -/
def execResetNRelease (s : State) : Host.Outcome State Fault Refusal := .next (if s.resetHeld then s.begun 1 else s)

end Sys2Proof.Machine
end

