-- ==== Sys2Proof/Machine/Management.lean ====
section
/-! DEFINITION. The commands of the management requests: each is the arrival of the good MGMT frame that carries the request
(R175, R186, R187, log 3). -/

namespace Sys2Proof.Machine

/-- The MGMT frame with a request arrives. -/
def requestArrives (tag : Byte) (r : Request) (s : State) : Host.Outcome State Fault Refusal :=
  .next (frameArrives .u (mgmtFrame tag (encodeRequest r)) s)

/-- ECHO (R190). -/
def execEcho (tag : Byte) (data : List Byte) (s : State) : Host.Outcome State Fault Refusal := requestArrives tag (.echo data) s

/-- READ_CELL (R191, R171). -/
def execReadCell (tag : Byte) (s : State) : Host.Outcome State Fault Refusal := requestArrives tag (.read 0 0 false) s

/-- READ_LAY (R26). -/
def execReadLay (tag : Byte) (lay : BitVec 16) (s : State) : Host.Outcome State Fault Refusal :=
  requestArrives tag (.read 1 lay false) s

/-- READ_SLOT (R129). -/
def execReadSlot (tag : Byte) (slot : BitVec 16) (s : State) : Host.Outcome State Fault Refusal :=
  requestArrives tag (.read 2 slot false) s

/-- READ_ZONES (R86). -/
def execReadZones (tag : Byte) (s : State) : Host.Outcome State Fault Refusal := requestArrives tag (.read 3 0 false) s

/-- READ_JOB (R68). -/
def execReadJob (tag : Byte) (job : BitVec 16) (s : State) : Host.Outcome State Fault Refusal :=
  requestArrives tag (.read 4 job false) s

/-- READ_JOBS (R68). -/
def execReadJobs (tag : Byte) (s : State) : Host.Outcome State Fault Refusal := requestArrives tag (.read 5 0 false) s

/-- READ_PROGRAM (R51). -/
def execReadProgram (tag : Byte) (program : BitVec 16) (s : State) : Host.Outcome State Fault Refusal :=
  requestArrives tag (.read 6 program false) s

/-- READ_EVENTS (R158). -/
def execReadEvents (tag : Byte) (s : State) : Host.Outcome State Fault Refusal := requestArrives tag (.read 7 0 false) s

/-- READ_GATE (R108). -/
def execReadGate (tag : Byte) (s : State) : Host.Outcome State Fault Refusal := requestArrives tag (.read 8 0 false) s

/-- READ_DELIVERY_HEAD (R141). -/
def execReadDeliveryHead (tag : Byte) (s : State) : Host.Outcome State Fault Refusal := requestArrives tag (.read 9 0 false) s

/-- READ_LINK (R184). -/
def execReadLink (tag : Byte) (clear : Bool) (s : State) : Host.Outcome State Fault Refusal :=
  requestArrives tag (.read 10 0 clear) s

/-- LOAD_CELL (R169). -/
def execLoadCell (tag : Byte) (values : CellLoad) (s : State) : Host.Outcome State Fault Refusal :=
  requestArrives tag (.loadCell values) s

/-- LOAD_SLOT (R130, R192). -/
def execLoadSlot (tag slot : Byte) (config : Option SlotLoad) (s : State) : Host.Outcome State Fault Refusal :=
  requestArrives tag (.loadSlot slot config) s

/-- LOAD_SEVERITY (R155). -/
def execLoadSeverity (tag kind : Byte) (cls : Option Byte) (notice : Option Bool) (s : State) : Host.Outcome State Fault Refusal :=
  requestArrives tag (.loadSeverity kind cls notice) s

/-- LOAD_PROGRAM (R29). -/
def execLoadProgram (tag program : Byte) (steps : List RawStep) (s : State) : Host.Outcome State Fault Refusal :=
  requestArrives tag (.loadProgram program steps) s

/-- ERASE_PROGRAM (R32). -/
def execEraseProgram (tag program : Byte) (s : State) : Host.Outcome State Fault Refusal :=
  requestArrives tag (.eraseProgram program) s

/-- LOAD_JOB (R58 to R60). -/
def execLoadJob (tag : Byte) (entry : JobLoad) (s : State) : Host.Outcome State Fault Refusal :=
  requestArrives tag (.loadJob entry) s

/-- DROP_JOB (R61). -/
def execDropJob (tag : Byte) (job : BitVec 16) (s : State) : Host.Outcome State Fault Refusal :=
  requestArrives tag (.dropJob job) s

/-- PROBE (R160). -/
def execProbe (tag : Byte) (s : State) : Host.Outcome State Fault Refusal := requestArrives tag (.cellControl 0) s

/-- START (R161). -/
def execStart (tag : Byte) (s : State) : Host.Outcome State Fault Refusal := requestArrives tag (.cellControl 1) s

/-- STOP (R163). -/
def execStop (tag : Byte) (s : State) : Host.Outcome State Fault Refusal := requestArrives tag (.cellControl 2) s

/-- ACK_HALT (R165). -/
def execAckHalt (tag : Byte) (s : State) : Host.Outcome State Fault Refusal := requestArrives tag (.cellControl 3) s

/-- RETRAIN (R120). -/
def execRetrain (tag : Byte) (s : State) : Host.Outcome State Fault Refusal := requestArrives tag (.cellControl 4) s

/-- RESET_WEAR (R103). -/
def execResetWear (tag : Byte) (s : State) : Host.Outcome State Fault Refusal := requestArrives tag (.cellControl 5) s

/-- CELL_RESET (R170). -/
def execCellReset (tag : Byte) (s : State) : Host.Outcome State Fault Refusal := requestArrives tag (.cellControl 6) s

/-- LAY_CONTROL_HOLD (R18). -/
def execLayControlHold (tag lay : Byte) (s : State) : Host.Outcome State Fault Refusal := requestArrives tag (.layControl lay 0) s

/-- LAY_CONTROL_RELEASE (R19). -/
def execLayControlRelease (tag lay : Byte) (s : State) : Host.Outcome State Fault Refusal :=
  requestArrives tag (.layControl lay 1) s

/-- LAY_CONTROL_ABANDON (R21 to R23). -/
def execLayControlAbandon (tag lay : Byte) (s : State) : Host.Outcome State Fault Refusal :=
  requestArrives tag (.layControl lay 2) s

/-- TAKE_DELIVERY (R139). -/
def execTakeDelivery (tag : Byte) (s : State) : Host.Outcome State Fault Refusal := requestArrives tag .takeDelivery s

/-- CLEAR_EVENTS (R154). -/
def execClearEvents (tag : Byte) (flags counters : BitVec 32) (s : State) : Host.Outcome State Fault Refusal :=
  requestArrives tag (.clearEvents flags counters) s

/-- BAD_REQUEST (R198): a MGMT frame whose payload does not parse; answered by what the payload is. -/
def execBadRequest (tag : Byte) (payload : List Byte) (s : State) : Host.Outcome State Fault Refusal :=
  .next (frameArrives .u (mgmtFrame tag payload) s)

end Sys2Proof.Machine
end

