-- ==== Sys2Proof/Machine/Dispatch.lean ====
section
/-! DEFINITION. The dispatcher: one arm per command of Instr. -/

namespace Sys2Proof.Machine

def exec (i : Instr) (s : State) : Host.Outcome State Fault Refusal :=
  match i with
  | .powerOn => Sys2Proof.Machine.execPowerOn s
  | .resetNAssert => Sys2Proof.Machine.execResetNAssert s
  | .resetNRelease => Sys2Proof.Machine.execResetNRelease s
  | .badFrame port whole bytes => Sys2Proof.Machine.execBadFrame port whole bytes s
  | .ticket t => Sys2Proof.Machine.execTicket t s
  | .mgmt tag payload => Sys2Proof.Machine.execMgmt tag payload s
  | .direct node tag order => Sys2Proof.Machine.execDirect node tag order s
  | .identAns node tag kind caps => Sys2Proof.Machine.execIdentAns node tag kind caps s
  | .done node tag value => Sys2Proof.Machine.execDone node tag value s
  | .refused node tag reason => Sys2Proof.Machine.execRefused node tag reason s
  | .pos node tag value => Sys2Proof.Machine.execPos node tag value s
  | .strokeBegin node tag => Sys2Proof.Machine.execStrokeBegin node tag s
  | .fault node tag code => Sys2Proof.Machine.execFault node tag code s
  | .button node tag => Sys2Proof.Machine.execButton node tag s
  | .presence node tag up => Sys2Proof.Machine.execPresence node tag up s
  | .guardState node tag isOpen locked => Sys2Proof.Machine.execGuardState node tag isOpen locked s
  | .uPortLockGained => Sys2Proof.Machine.execUPortLockGained s
  | .uPortLockLost receiving => Sys2Proof.Machine.execUPortLockLost receiving s
  | .ringUp => Sys2Proof.Machine.execRingUp s
  | .ringDown receiving => Sys2Proof.Machine.execRingDown receiving s
  | .uPortFrameEnd => Sys2Proof.Machine.execUPortFrameEnd s
  | .orderFrameEnd => Sys2Proof.Machine.execOrderFrameEnd s
  | .fillTimerExpiry => Sys2Proof.Machine.execFillTimerExpiry s
  | .orderTimerExpiry slot => Sys2Proof.Machine.execOrderTimerExpiry slot s
  | .identTimerExpiry slot => Sys2Proof.Machine.execIdentTimerExpiry slot s
  | .permitWindowExpiry => Sys2Proof.Machine.execPermitWindowExpiry s
  | .strokeTimerExpiry => Sys2Proof.Machine.execStrokeTimerExpiry s
  | .idleTimerExpiry => Sys2Proof.Machine.execIdleTimerExpiry s
  | .wakeSettleExpiry => Sys2Proof.Machine.execWakeSettleExpiry s
  | .lockWaitExpiry => Sys2Proof.Machine.execLockWaitExpiry s
  | .admission => Sys2Proof.Machine.execAdmission s
  | .echo tag data => Sys2Proof.Machine.execEcho tag data s
  | .readCell tag => Sys2Proof.Machine.execReadCell tag s
  | .readLay tag lay => Sys2Proof.Machine.execReadLay tag lay s
  | .readSlot tag slot => Sys2Proof.Machine.execReadSlot tag slot s
  | .readZones tag => Sys2Proof.Machine.execReadZones tag s
  | .readJob tag job => Sys2Proof.Machine.execReadJob tag job s
  | .readJobs tag => Sys2Proof.Machine.execReadJobs tag s
  | .readProgram tag program => Sys2Proof.Machine.execReadProgram tag program s
  | .readEvents tag => Sys2Proof.Machine.execReadEvents tag s
  | .readGate tag => Sys2Proof.Machine.execReadGate tag s
  | .readDeliveryHead tag => Sys2Proof.Machine.execReadDeliveryHead tag s
  | .readLink tag clear => Sys2Proof.Machine.execReadLink tag clear s
  | .loadCell tag values => Sys2Proof.Machine.execLoadCell tag values s
  | .loadSlot tag slot config => Sys2Proof.Machine.execLoadSlot tag slot config s
  | .loadSeverity tag kind cls notice => Sys2Proof.Machine.execLoadSeverity tag kind cls notice s
  | .loadProgram tag program steps => Sys2Proof.Machine.execLoadProgram tag program steps s
  | .eraseProgram tag program => Sys2Proof.Machine.execEraseProgram tag program s
  | .loadJob tag entry => Sys2Proof.Machine.execLoadJob tag entry s
  | .dropJob tag job => Sys2Proof.Machine.execDropJob tag job s
  | .probe tag => Sys2Proof.Machine.execProbe tag s
  | .start tag => Sys2Proof.Machine.execStart tag s
  | .stop tag => Sys2Proof.Machine.execStop tag s
  | .ackHalt tag => Sys2Proof.Machine.execAckHalt tag s
  | .retrain tag => Sys2Proof.Machine.execRetrain tag s
  | .resetWear tag => Sys2Proof.Machine.execResetWear tag s
  | .cellReset tag => Sys2Proof.Machine.execCellReset tag s
  | .layControlHold tag lay => Sys2Proof.Machine.execLayControlHold tag lay s
  | .layControlRelease tag lay => Sys2Proof.Machine.execLayControlRelease tag lay s
  | .layControlAbandon tag lay => Sys2Proof.Machine.execLayControlAbandon tag lay s
  | .takeDelivery tag => Sys2Proof.Machine.execTakeDelivery tag s
  | .clearEvents tag flags counters => Sys2Proof.Machine.execClearEvents tag flags counters s
  | .badRequest tag payload => Sys2Proof.Machine.execBadRequest tag payload s

end Sys2Proof.Machine
end

