-- ==== Sys2Proof/Safety.lean ====
section
/-! DEFINITION. The invariants of the part, clause by clause, each kept by every step; and the words in which the obligations speak of
a request's answer. -/

namespace Sys2Proof

/-- The command by which a report arrives. -/
def Report.command (node : Nat) (tag : Byte) : Report → Instr
  | .identAns kind caps => .identAns node tag kind caps
  | .done value => .done node tag value
  | .refused reason => .refused node tag reason
  | .pos value => .pos node tag value
  | .strokeBegin => .strokeBegin node tag
  | .fault code => .fault node tag code
  | .button => .button node tag
  | .presence up => .presence node tag up
  | .guardState isOpen locked => .guardState node tag isOpen locked

namespace Machine

/-! ### Tables and queues -/

/-- The tables have their sizes: 8 lay records, 64 program slots, 12 station slots, 32 event kinds (R1, R27, R109, R142). -/
def State.shaped (s : State) : Prop :=
  s.lays.length = 8 ∧ s.programs.length = 64 ∧ s.slots.length = 12 ∧ s.events.kinds.length = 32

/-- The queues keep their capacities (R53, R55, R111, R138, R176, R180, R186). -/
def State.queuesBounded (s : State) : Prop :=
  s.intake.tickets.length ≤ 4 ∧ s.intake.jobs.length ≤ 32 ∧ s.mgmt.length ≤ 4 ∧ s.link.copies.length ≤ 8 ∧ s.link.credit ≤ 16 ∧
    s.delivery.records.length ≤ 16 ∧ ∀ x ∈ s.slots, x.posted.length ≤ 4

/-- No two Job Map entries have one job number (R55). -/
def State.jobsDistinct (s : State) : Prop := (s.intake.jobs.map JobEntry.job).Nodup

/-- The pieces on the piece list have numbers of their own, below that of the next (log 47), so that the end of a DELIVER finds one piece
(R134). -/
def State.piecesNumbered (s : State) : Prop :=
  (s.delivery.pieces.map Piece.number).Nodup ∧ ∀ p ∈ s.delivery.pieces, p.number < s.delivery.nextPiece

/-! ### Lays -/

/-- The admission order lists each live lay exactly once (R1, R2). -/
def State.orderListsLays (s : State) : Prop :=
  s.order.Nodup ∧ (∀ n ∈ s.order, (s.lay? n).isSome = true) ∧ ∀ n < 8, (s.lay? n).isSome = true → n ∈ s.order

/-- A lay has a hold cause, and a held-from that is not HELD, exactly while it is HELD (R15, R149). -/
def Lay.holdExplained (l : Lay) : Prop :=
  (l.state = .held ↔ l.cause.isSome = true) ∧ (l.state = .held ↔ l.heldFrom.isSome = true) ∧ l.heldFrom ≠ some .held

def State.holdsExplained (s : State) : Prop := ∀ o ∈ s.lays, ∀ l, o = some l → l.holdExplained

/-! ### The gate -/

/-- There is a permit record exactly in OPEN and STROKE, and completed strokes never exceed permits (R96). -/
def Gate.sound (g : Gate) : Prop :=
  (g.permit.isSome = true ↔ g.state = .opened ∨ g.state = .stroke) ∧ g.strokes ≤ g.permits ∧ g.permits ≤ 4294967295 ∧
    (g.state = .opened ∨ g.state = .stroke → g.strokes < g.permits ∨ g.permits = 4294967295)

/-! ### Events -/

/-- A fixed kind has its default class and no other kind has class NOTE (R143). -/
def EventUnit.classesFixed (e : EventUnit) : Prop :=
  ∀ i < 32, (fixedKind i = true → (e.kindAt i).cls = (defaultClasses[i]?).getD .ignore) ∧
    (fixedKind i = false → (e.kindAt i).cls ≠ .note)

/-- No event counter exceeds 65,535 (R144). -/
def EventUnit.countersBounded (e : EventUnit) : Prop := ∀ r ∈ e.kinds, r.counter ≤ 65535

/-- The halt cause is present exactly while the cell is HALTED (R151). -/
def State.haltExplained (s : State) : Prop := s.events.haltCause.isSome = true ↔ s.cell.state = .halted

/-! ### Slots and ports -/

/-- The announced STOP took the tag after that of the order in flight, and the next tag follows both (R112, R116). -/
def Slot.tagsFollow (x : Slot) : Prop :=
  ∀ i, x.inFlight = some i → match x.announced with
    | none => x.nextTag = (i.tag + 1) % 16
    | some a => a.tag = (i.tag + 1) % 16 ∧ x.nextTag = (i.tag + 2) % 16

/-- A slot is UNUSED exactly where it has no configuration; tags are 0 to 15 and follow one another; a STOP is announced only behind an
order in flight (R109, R112, R116). -/
def Slot.sound (x : Slot) : Prop :=
  (x.config = none ↔ x.state = .unused) ∧ x.nextTag < 16 ∧ (∀ i, x.inFlight = some i → i.tag < 16) ∧
    (∀ a, x.announced = some a → a.tag < 16 ∧ x.inFlight.isSome = true) ∧ x.tagsFollow

def State.slotsSound (s : State) : Prop := ∀ x ∈ s.slots, x.sound

/-- Every frame that waits in the output list is that of an order in flight or of an announced STOP, one frame for each: at most two
frames a slot (R181). -/
def State.framesHeld (s : State) : Prop :=
  (∀ f ∈ s.link.output, f.tag ∈ (s.slot f.slot).tags) ∧ (s.link.output.map fun f => (f.slot, f.tag)).Nodup

/-- SUM is set whenever another flag of the port is (R174). -/
def RxFlags.summed (r : RxFlags) : Prop := r.check = true ∨ r.framing = true ∨ r.length = true ∨ r.overrun = true → r.sum = true

def State.flagsSummed (s : State) : Prop := s.link.uFlags.summed ∧ s.link.sFlags.summed

/-! ### The invariant -/

/-- What every step keeps. -/
structure Inv (s : State) : Prop where
  shaped : s.shaped
  queues : s.queuesBounded
  jobs : s.jobsDistinct
  pieces : s.piecesNumbered
  order : s.orderListsLays
  holds : s.holdsExplained
  gate : s.gate.sound
  classes : s.events.classesFixed
  counters : s.events.countersBounded
  halt : s.haltExplained
  slots : s.slotsSound
  frames : s.framesHeld
  flags : s.flagsSummed

/-! ### What no event's work touches -/

/-- The part of the state that a command's own primary effect may change but nothing an event leads to does: the queue of commands,
the reset pin, the management queue, the programs, the ticket queue, the cell parameters, the ports' lock and ring, the U-port's
receive flags, every statistic but copies dropped, the class and the notice bit of each event kind. -/
def State.frame (s : State) :=
  (s.pending, s.resetHeld, s.mgmt, s.programs, s.intake.tickets, s.cell.params, s.link.uLock, s.link.ringUp, s.link.uFlags,
    { s.link.uStats with copiesDropped := 0 }, s.link.sStats, s.events.kinds.map fun r => (r.cls, r.notice))

/-! ### Words of the obligations: events -/

/-- The event whose own effect leaves the state `s` and gives rise to `work`: the work is done in order, what waited for a condition
is taken up until everything has settled, and the idle U-port transmitter takes a frame (R142, R182). -/
def State.after (s : State) (work : List Task) : State := takeFrame (complete (s, work))

/-- A REPORT from a node is received and reaches a slot: not reset, the ring UP, the address in its range, the node configured (R179). -/
def State.hears (s : State) (node k : Nat) : Prop :=
  s.resetHeld = false ∧ s.link.ringUp = true ∧ node ≤ 31 ∧ s.slotAt node = some k

/-- The U-port can receive: not reset, with lock (R183). -/
def State.listens (s : State) : Prop := s.resetHeld = false ∧ s.link.uLock = true

/-- A good REPORT is counted (R179, R184). -/
def State.reported (s : State) : State :=
  { s with link := { s.link with sStats := { s.link.sStats with
      good := bump32 s.link.sStats.good, reports := bump32 s.link.sStats.reports } } }

/-- The copy that is made of a report after the slot has taken it, where the slot's forward flag is on (R180). -/
def State.copyWork (s : State) (k node : Nat) (tag : Byte) (r : Report) : List Task :=
  if (s.slot k).config.any SlotConfig.forward then [.copy ⟨k, node, tag, r⟩] else []

/-! ### Words of the obligations: requests -/

/-- The part takes requests and has none under way: not reset, the U-port with lock, no request and no REPLY waiting (R187). -/
def State.awaitsRequest (s : State) : Prop :=
  s.resetHeld = false ∧ s.link.uLock = true ∧ s.mgmt = [] ∧ s.replyWaits = false

/-- The state in which such a part executes the request of a MGMT frame that arrives: the frame is counted, and the idle transmitter
has taken what waited (R175, R182, R187). -/
def State.taking (s : State) : State :=
  takeFrame { s with link := { s.link with uStats := { s.link.uStats with
    good := bump32 s.link.uStats.good, requests := bump32 s.link.uStats.requests } } }

/-- The REPLY to a request joins the answer list and the idle transmitter takes a frame (R182, R188). -/
def State.answered (s : State) (tag : Byte) (r : Request) (result : Result) (body : List Byte) : State :=
  takeFrame (s.answer (replyFrame tag (encodeRequest r) result body))

/-- The work of a request's event is done and everything has settled before its REPLY is built (R193). -/
def State.worked (s : State) (work : List Task) : State := complete (s, work)

/-- Nothing of the part but its links and its owed notices has changed. -/
def State.sameButLinks (s t : State) : Prop :=
  { t with link := s.link, events := s.events } = s ∧
    t.events.kinds.map (fun r => { r with owed := none }) = s.events.kinds.map (fun r => { r with owed := none }) ∧
    t.events.haltCause = s.events.haltCause ∧ t.events.deferred = s.events.deferred

end Machine

end Sys2Proof
end

