-- ==== Sys2Proof/Certificates/Slice0/Obligations.lean ====
section
/-! DEFINITION. The statements for the provers: the machine as a whole, its invariant, the timers, the station's reports, the links, the
management requests, and the rules of the blocks inside an event. -/

open Sys2Proof Sys2Proof.Machine

/-! ### The machine as a whole -/

/-- A step of a state with a command at the front of its queue is that command on the state with the queue's rest. -/
def Obligations.StepTakesFrontCommand : Prop :=
  ∀ (c : Instr) (rest : List Instr) (s : State),
    step { s with pending := c :: rest } = exec c { s with pending := rest }

/-- Every command is taken in every state: exec answers a next state, and leaves the queue of commands as it stood. -/
def Obligations.EveryCommandAnswersNext : Prop :=
  ∀ (c : Instr) (s : State), ∃ t, exec c s = .next t ∧ t.pending = s.pending

/-- On an empty queue a step is the first of these commands that is due: the fill timer's expiry, the order timer's of the lowest-numbered
slot with one run down (IDENT_TIMER_EXPIRY for an IDENT), the permit window's, the stroke timer's, the idle, the settle and the lock wait
timers', the admission of a waiting ticket. Where none is due one millisecond passes on every running timer and nothing else changes; while
RESET_N is held nothing does (the order and the millisecond are the model's choice, log 1). -/
def Obligations.EmptyQueueStep : Prop :=
  ∀ s : State, s.pending = [] →
    let noFill := ∀ f, s.intake.fill = some f → f.left ≠ 0
    let noOrder := fun (m : Nat) => ∀ j < m, ∀ i, (s.slot j).inFlight = some i → i.left ≠ 0
    let noStroke := ∀ t, s.gate.timer = some t → t.elapsed < t.limit
    (s.resetHeld = true → step s = .next s) ∧
    (∀ f, s.resetHeld = false → s.intake.fill = some f → f.left = 0 → step s = exec .fillTimerExpiry s) ∧
    (∀ k i, s.resetHeld = false → noFill → k < s.slots.length → noOrder k → (s.slot k).inFlight = some i → i.left = 0 →
      step s = exec (if i.order.kind = .ident then .identTimerExpiry k else .orderTimerExpiry k) s) ∧
    (s.resetHeld = false → noFill → noOrder s.slots.length →
      (s.gate.window = some 0 → step s = exec .permitWindowExpiry s) ∧
      (∀ t, s.gate.window ≠ some 0 → s.gate.timer = some t → t.limit ≤ t.elapsed → step s = exec .strokeTimerExpiry s) ∧
      (s.gate.window ≠ some 0 → noStroke →
        (s.cell.idle = some 0 → step s = exec .idleTimerExpiry s) ∧
        (s.cell.idle ≠ some 0 → s.cell.settle = some 0 → step s = exec .wakeSettleExpiry s) ∧
        (s.cell.idle ≠ some 0 → s.cell.settle ≠ some 0 → s.cell.lockWait = some 0 → step s = exec .lockWaitExpiry s) ∧
        (s.cell.idle ≠ some 0 → s.cell.settle ≠ some 0 → s.cell.lockWait ≠ some 0 →
          (s.intake.tickets ≠ [] → s.freeRecord.isSome = true → step s = exec .admission s) ∧
          (s.intake.tickets = [] ∨ s.freeRecord = none → step s = .next { s with
            intake := { s.intake with fill := s.intake.fill.map fun f => { f with left := f.left - 1 } }
            slots := s.slots.map fun x => { x with inFlight := x.inFlight.map fun i => { i with left := i.left - 1 } }
            gate := { s.gate with
              window := s.gate.window.map (· - 1)
              timer := s.gate.timer.map fun t => { t with elapsed := t.elapsed + 1 } }
            cell := { s.cell with
              idle := s.cell.idle.map (· - 1)
              settle := s.cell.settle.map (· - 1)
              lockWait := s.cell.lockWait.map (· - 1) } }))))

/-- The state after power-on satisfies the invariant. -/
def Obligations.ResetHoldsInvariant : Prop := Inv State.reset

/-- Every step from a state that satisfies the invariant ends in one that does. -/
def Obligations.StepKeepsInvariant : Prop :=
  ∀ s t : State, Inv s → step s = .next t → Inv t

/-- POWER_ON and RESET_N put every block at its power-on value; at power-up and at the release STARTED has been taken, and while RESET_N
is low it has not. The queue of commands and the count of free choices are the model's own and stand on (logs 20 and 31). -/
def Obligations.ResetLinesReset : Prop :=
  ∀ s : State,
    exec .powerOn s = .next { State.reset with pending := s.pending, choices := s.choices } ∧
    exec .resetNAssert s = .next { State.blank with pending := s.pending, choices := s.choices, resetHeld := true } ∧
    (s.resetHeld = true → ∃ t, exec .resetNRelease s = .next t ∧
      t = { State.blank with pending := s.pending, choices := s.choices, events := EventUnit.started 1 } ∧
      t.cell.state = .off ∧ t.cell.params = CellParams.default ∧ t.cell.wakeWanted = false ∧ t.link.ringUp = false ∧
      t.link.uLock = false ∧ (t.events.kindAt 0).counter = 1 ∧ (t.events.kindAt 0).flag = true ∧
      (t.events.kindAt 0).owed = some (.none, 1)) ∧
    (s.resetHeld = false → exec .resetNRelease s = .next s)

/-- While RESET_N is held low no command but power-on and RESET_N's own has any effect. -/
def Obligations.HeldResetTakesNothing : Prop :=
  ∀ (c : Instr) (s : State), s.resetHeld = true → c ≠ .powerOn → c ≠ .resetNAssert → c ≠ .resetNRelease → exec c s = .next s

/-! ### Timers and admission -/

/-- FILL_TIMER_EXPIRY raises FILL_TIMEOUT for each lay in AWAIT_JOB with the request's job, oldest first, and ends the request. The request
ends as soon as no AWAIT_JOB lay has its job, and an absent one starts for the oldest AWAIT_JOB lay's job, with JOB_MISS and its timer at
FILL_TIME; else it stands. -/
def Obligations.FillTimerExpiryRaisesTimeouts : Prop :=
  (∀ s : State, s.resetHeld = false →
    (∀ f, s.intake.fill = some f → exec .fillTimerExpiry s = .next (s.after
      ((s.order.filter fun n => (s.lay? n).any fun l => decide (l.state = .awaitJob) && decide (l.job = f.job)).map
        (fun n => .raise .fillTimeout (.lay n) f.job) ++ [.fillEnds]))) ∧
    (s.intake.fill = none → exec .fillTimerExpiry s = .next (s.after [])) ∧
    perform .fillEnds s = ({ s with intake := { s.intake with fill := none } }, [])) ∧
  ∀ s : State,
    let awaits := fun (n : Nat) => ∃ l, s.lay? n = some l ∧ l.state = .awaitJob
    (∀ f, s.intake.fill = some f → (∀ n ∈ s.order, ∀ l, s.lay? n = some l → l.state = .awaitJob → l.job ≠ f.job) →
      fillRule s = some ({ s with intake := { s.intake with fill := none } }, [])) ∧
    (∀ f n l, s.intake.fill = some f → n ∈ s.order → s.lay? n = some l → l.state = .awaitJob → l.job = f.job → fillRule s = none) ∧
    (∀ n l older younger, s.intake.fill = none → s.order = older ++ n :: younger → (∀ m ∈ older, ¬awaits m) → s.lay? n = some l →
      l.state = .awaitJob → fillRule s = some
        ({ s with intake := { s.intake with fill := some ⟨l.job, s.cell.params.fillTime⟩ } }, [.raise .jobMiss (.job l.job) n])) ∧
    (s.intake.fill = none → (∀ m ∈ s.order, ¬awaits m) → fillRule s = none)

/-- ORDER_TIMER_EXPIRY ends the slot's order with a timeout, which its origins are handed before ORDER_TIMEOUT is raised; a READY slot is
FAULTED, and an announced STOP becomes the order in flight. IDENT_TIMER_EXPIRY takes a PROBING slot to ABSENT (R119) and leaves a FAULTED
one FAULTED (log 13). The frames of the orders that end are withdrawn where they still wait (log 43); the boundary a present's or a move's
end gives its lay comes after all these (log 10). With nothing in flight neither does anything. -/
def Obligations.OrderTimersExpire : Prop :=
  ∀ (s : State) (k : Nat), s.resetHeld = false →
    (∀ i, (s.slot k).inFlight = some i →
      (i.order.kind ≠ .ident → exec (.orderTimerExpiry k) s = .next (State.after
        ((s.withdraw k [i.tag]).setSlot k { s.slot k with
          state := if (s.slot k).state = .ready then .faulted else (s.slot k).state
          inFlight := (s.slot k).announced.map fun a => ⟨a.tag, a.order, (s.slot k).timeoutOf⟩
          announced := none })
        ([.ended k (some i.tag) i.order .timedOut,
          .raise .orderTimeout ((i.order.lay?.map Subject.lay).getD .none) (k * 16 + i.tag)] ++ moveEnds i.order))) ∧
      (i.order.kind = .ident → (s.slot k).state = .probing → exec (.identTimerExpiry k) s = .next (State.after
        ((s.withdraw k (i.tag :: ((s.slot k).announced.map Announced.tag).toList)).setSlot k { s.slot k with
          state := .absent, caps := none, inFlight := none, announced := none, position := none, guard := none, drive := false
          lastStrokeTag := none })
        (((s.slot k).announced.map fun a => endTasks k (some a.tag) a.order .lost).getD []))) ∧
      (i.order.kind = .ident → (s.slot k).state ≠ .probing → exec (.identTimerExpiry k) s = .next (State.after
        ((s.withdraw k [i.tag]).setSlot k { s.slot k with
          inFlight := (s.slot k).announced.map fun a => ⟨a.tag, a.order, (s.slot k).timeoutOf⟩, announced := none }) [])) ∧
      (i.order.kind = .ident → exec (.orderTimerExpiry k) s = .next (s.after [])) ∧
      (i.order.kind ≠ .ident → exec (.identTimerExpiry k) s = .next (s.after []))) ∧
    ((s.slot k).inFlight = none →
      exec (.orderTimerExpiry k) s = .next (s.after []) ∧ exec (.identTimerExpiry k) s = .next (s.after []))

/-- PERMIT_WINDOW_EXPIRY with the gate OPEN: the gate is CLOSED without a permit, its totals stand, STOP goes to the KNIFE slot, STROKE_LAPSE
is raised for the lay. STROKE_TIMER_EXPIRY in STROKE: the gate is LOCKED_OUT, the lay stands in POSITIONING with a deferred hold taken,
INTERRUPTED is raised for it before STROKE_TIMEOUT, and the lock-out's ENABLE(off) follows. In other gate states neither does anything. -/
def Obligations.GateTimersExpire : Prop :=
  ∀ s : State, s.resetHeld = false →
    (∀ p, s.gate.state = .opened → s.gate.permit = some p → exec .permitWindowExpiry s = .next (State.after
      { s with gate := { s.gate with state := .closed, permit := none, window := none, timer := none } }
      (s.postTo .knife .stop (.gate p.lay) ++ [.raise .strokeLapse (.lay p.lay) p.step]))) ∧
    (s.gate.state ≠ .opened → exec .permitWindowExpiry s = .next (s.after [])) ∧
    (∀ p, s.gate.state = .stroke → s.gate.permit = some p → exec .strokeTimerExpiry s = .next (State.after
      (({ s with gate := { s.gate with state := .lockedOut, permit := none, window := none, timer := none } }.updateLay p.lay
        fun l => { l with phase := some .positioning }).takeDeferred)
      [.raise .interrupted (.lay p.lay) p.step, .raise .strokeTimeout s.knifeSubject 0, .lockOutOrder])) ∧
    (s.gate.state ≠ .stroke → exec .strokeTimerExpiry s = .next (s.after []))

/-- IDLE_TIMER_EXPIRY enters PARKING and posts the parking orders; WAKE_SETTLE_EXPIRY enters RUNNING where the guard says closed and locked,
else starts the lock wait; LOCK_WAIT_EXPIRY fails the start or wake: STANDBY, its orders no longer Cell Control's. A timer that does not
run does nothing. The changes of state that wait for a condition: PROBING, STARTING, WAKING, STOPPING and PARKING end when theirs holds; the
entry into WAKING tests the stations and the guard; HALTED is left for STANDBY or OFF alone; the idle timer runs exactly in RUNNING with
an empty Lay Table. PARKED is entered at the hand-over of the last parking order's end, whose task .parkTest enters it where no order of
Cell Control is awaited: the model's choice (log 54). -/
def Obligations.CellTimersExpire : Prop :=
  (∀ s : State, s.resetHeld = false →
    (s.cell.idle.isSome = true → exec .idleTimerExpiry s = .next (s.after (.enter .parking ::
      (s.postTo .clamp (.enable false) (.cell true) ++ s.postTo .knife (.enable false) (.cell true) ++
        s.postTo .lift (.enable false) (.cell true))))) ∧
    (s.cell.idle = none → exec .idleTimerExpiry s = .next (s.after [])) ∧
    (s.cell.settle.isSome = true → s.guardLocked = true → exec .wakeSettleExpiry s = .next (s.after [.enter .running])) ∧
    (s.cell.settle.isSome = true → s.guardLocked = false → exec .wakeSettleExpiry s = .next (State.after
      { s with cell := { s.cell with settle := none, lockWait := some (((s.workingSlot .guard).map Slot.timeoutOf).getD 0) } } [])) ∧
    (s.cell.settle = none → exec .wakeSettleExpiry s = .next (s.after [])) ∧
    (s.cell.lockWait.isSome = true → exec .lockWaitExpiry s = .next (State.after
      (State.detachCell { s with cell := { s.cell with lockWait := none } }) [.enter .standby])) ∧
    (s.cell.lockWait = none → exec .lockWaitExpiry s = .next (s.after []))) ∧
  (∀ s : State,
    let lockWaits := { s with cell := { s.cell with
      settle := none, lockWait := some (((s.workingSlot .guard).map Slot.timeoutOf).getD 0) } }
    let laysAtWork := ∃ x ∈ s.slots, ∃ o ∈ x.orders, ∃ c ∈ o.sources, c.lay?.isSome = true
    (s.cell.state = .probing → cellRule s =
      if ∃ x ∈ s.slots, x.state = .probing then none else some (s, [.enter .standby])) ∧
    (s.cell.state = .starting ∨ s.cell.state = .waking → s.awaiting = true → cellRule s = none) ∧
    (s.cell.state = .starting → s.awaiting = false → cellRule s =
      if s.guardLocked = true then some (s, [.enter .running]) else if s.cell.lockWait.isSome = true then none else some (lockWaits, [])) ∧
    (s.cell.state = .waking → s.awaiting = false → cellRule s =
      if s.cell.lockWait.isSome = true then (if s.guardLocked = true then some (s, [.enter .running]) else none)
      else if s.cell.settle.isSome = true then none
      else if s.cell.params.wakeSettle ≠ 0 then
        some ({ s with cell := { s.cell with settle := some s.cell.params.wakeSettle } }, [])
      else if s.guardLocked = true then some (s, [.enter .running]) else some (lockWaits, [])) ∧
    (s.cell.state = .stopping → cellRule s =
      if ¬laysAtWork ∧ (s.gate.state = .closed ∨ s.gate.state = .lockedOut) then some (s, [.enter .standby]) else none) ∧
    (s.cell.state = .parking → cellRule s = if s.awaiting = true then none else some (s, [.enter .parked])) ∧
    (s.cell.state = .off ∨ s.cell.state = .standby ∨ s.cell.state = .running ∨ s.cell.state = .halted ∨ s.cell.state = .parked →
      cellRule s = none) ∧
    (s.cell.idle.isSome = true → idleRule s =
      if s.lays.all Option.isNone = true then none else some ({ s with cell := { s.cell with idle := none } }, [])) ∧
    (s.cell.idle = none → idleRule s =
      if s.cell.state = .running ∧ s.lays.all Option.isNone = true ∧ s.cell.params.idlePark ≠ 0 then
        some ({ s with cell := { s.cell with idle := some s.cell.params.idlePark } }, []) else none)) ∧
  ∀ (s : State) (st : CellState),
    (s.cell.state = .halted → st ≠ .standby → st ≠ .off → perform (.enter st) s = (s, [])) ∧
    (st ≠ .halted → (s.cell.state = .halted → st = .standby ∨ st = .off) → perform (.enter st) s =
      ({ s with
          cell := { s.cell with
            state := st, idle := if st = .running then s.cell.idle else none, settle := none, lockWait := none
            wakeWanted := if st = .waking then false else s.cell.wakeWanted }
          events := { s.events with haltCause := none }
          delivery := { s.delivery with pieces := if st = .running then s.delivery.pieces.map fun p => { p with late := false }
            else s.delivery.pieces } },
        .raise .cellState .none st.index ::
          (if st = .parked ∧ s.cell.wakeWanted = true then [.enter .waking] else if st = .waking then [.wakeTest] else []))) ∧
    (s.kindsReady = false → perform .wakeTest s = (s.detachCell, [.enter .standby])) ∧
    (s.kindsReady = true → s.guardClosed = false →
      perform .wakeTest s = (s, [.raise .guardOpen (.slot ((s.working .guard).getD 0)) 0])) ∧
    (s.kindsReady = true → s.guardClosed = true → perform .wakeTest s = (s,
      s.postTo .clamp (.enable true) (.cell true) ++ s.postTo .knife (.enable true) (.cell true) ++
        s.postTo .lift (.enable true) (.cell true) ++ s.postTo .guard .lock (.cell true))) ∧
    ∀ k tag kind how,
      (s.cell.state = .starting ∨ s.cell.state = .waking → perform (.endFor k tag kind (.cell true) how) s =
        if how.isDone = true then (s, []) else (s.detachCell, [.enter .standby])) ∧
      (s.cell.state = .parking → perform (.endFor k tag kind (.cell true) how) s = (s, if tag.isSome = true then [.parkTest] else [])) ∧
      (s.cell.state = .parking → s.awaiting = false → perform .parkTest s = (s, [.enter .parked])) ∧
      (s.cell.state ≠ .parking ∨ s.awaiting = true → perform .parkTest s = (s, []))

/-- ADMISSION takes the oldest ticket into the lowest-numbered free record, whose number joins the admission order's tail and whose fields
take their admission values; on a hit the entry becomes most recent and the lay binds; PARKING wants a wake, PARKED enters WAKING after the
binding (log 42). Binding takes a lay out of AWAIT_JOB: it copies the entry's fields, X and Y where the ticket omitted them, stands at step
0 in QUEUED, and the first size check that fails, else an empty program slot, raises its event; a lay in another state binds no more. -/
def Obligations.AdmissionTakesOldestTicket : Prop :=
  (∀ s : State, s.resetHeld = false →
    (∀ t rest n, s.intake.tickets = t :: rest → s.freeRecord = some n →
      let enters := fun (i : Intake) => { s with
        intake := i
        lays := s.lays.set n (some (admitted t))
        order := s.order ++ [n]
        cell := { s.cell with wakeWanted := s.cell.wakeWanted || decide (s.cell.state = CellState.parking) } }
      let wake : List Task := if s.cell.state = CellState.parked then [.enter .waking] else []
      (∀ e, s.job? t.job = some e → exec .admission s = .next ((enters { s.intake with
        tickets := rest, jobs := e :: s.intake.jobs.filter fun f => decide (f.job ≠ e.job) }).after (.bind n e :: wake))) ∧
      (s.job? t.job = none → exec .admission s = .next ((enters { s.intake with tickets := rest }).after wake))) ∧
    (s.intake.tickets = [] ∨ s.freeRecord = none → exec .admission s = .next (s.after []))) ∧
  ∀ (s : State) (n : Nat) (e : JobEntry) (l : Lay), s.lay? n = some l →
    let x := l.x.getD e.defaultX
    let y := l.y.getD e.defaultY
    let p := s.cell.params
    let fits := x ≤ p.gaugeMax ∧ y ≤ p.tableWidth ∧ l.height ≤ p.clampMaxH
    let bound := s.setLay n (some { l with
      state := .queued, program := some e.program, step := some 0, x := some x, y := some y, press := some e.press
      mode := some e.mode, jogTime := some e.jogTime })
    (l.state ≠ .awaitJob → perform (.bind n e) s = (s, [])) ∧
    (l.state = .awaitJob → p.gaugeMax < x → perform (.bind n e) s = (bound, [.raise .sizeLimit (.lay n) 1001])) ∧
    (l.state = .awaitJob → x ≤ p.gaugeMax → p.tableWidth < y →
      perform (.bind n e) s = (bound, [.raise .sizeLimit (.lay n) 1002])) ∧
    (l.state = .awaitJob → x ≤ p.gaugeMax → y ≤ p.tableWidth → p.clampMaxH < l.height →
      perform (.bind n e) s = (bound, [.raise .sizeLimit (.lay n) 1003])) ∧
    (l.state = .awaitJob → fits → s.program e.program = none →
      perform (.bind n e) s = (bound, [.raise .badStep (.lay n) e.program])) ∧
    (l.state = .awaitJob → fits → (s.program e.program).isSome = true → perform (.bind n e) s = (bound, []))

/-! ### Reports -/

/-- IDENT_ANS with an IDENT in flight: the probe ends, with the configured kind READY and its capabilities recorded, with another FAULTED
and STATION_FAULT raised; a slot FAULTED meanwhile stays FAULTED (log 13). With none in flight it is a STRAY_REPORT. The IDENT's frame is
withdrawn where it still waits (log 43). The slot is FAULTED before the event is taken (log 52). -/
def Obligations.IdentAnsEndsProbe : Prop :=
  ∀ (s : State) (node k : Nat) (tag : Byte) (kind : StationKind) (caps : Caps), s.hears node k →
    let u := s.reported
    let x := s.slot k
    let copies := s.copyWork k node tag (.identAns kind caps)
    let ended := fun (i : InFlight) (c : Option Caps) (st : SlotState) => (u.withdraw k [i.tag]).setSlot k { x with
      inFlight := x.announced.map fun a => ⟨a.tag, a.order, x.timeoutOf⟩, announced := none, caps := c
      state := if x.state = .probing then st else x.state }
    (∀ i, x.inFlight = some i → i.order.kind = .ident → x.kind? = some kind →
      exec (.identAns node tag kind caps) s = .next ((ended i (some caps) .ready).after copies)) ∧
    (∀ i, x.inFlight = some i → i.order.kind = .ident → x.kind? ≠ some kind →
      exec (.identAns node tag kind caps) s = .next ((ended i x.caps .faulted).after
        (.raise .stationFault (.slot k) (256 + StationKind.index kind) :: copies))) ∧
    ((∀ i, x.inFlight = some i → i.order.kind ≠ .ident) →
      exec (.identAns node tag kind caps) s = .next (u.after (.raise .strayReport (.slot k) 512 :: copies)))

/-- DONE and REFUSED are matched by the tag alone: the order ends with the report, its frame is withdrawn where it still waits (log 43), and
its origins are handed the end, the boundary a present's or a move's end gives its lay coming after them (log 10); any other is a
STRAY_REPORT, which for a DONE of a KNIFE slot with the last STROKE tag still reaches the gate as an unbidden stroke. -/
def Obligations.AnswersMatchedByTag : Prop :=
  ∀ (s : State) (node k : Nat) (tag : Byte) (value : BitVec 32) (reason : Reason), s.hears node k →
    let u := s.reported
    let x := s.slot k
    let ended := (u.withdraw k [tag.toNat]).setSlot k { x with
      inFlight := x.announced.map fun a => ⟨a.tag, a.order, x.timeoutOf⟩, announced := none }
    (∀ i, x.inFlight = some i → i.tag = tag.toNat →
      exec (.done node tag value) s = .next (ended.after
        (.ended k (some i.tag) i.order (.done value) :: moveEnds i.order ++ s.copyWork k node tag (.done value))) ∧
      exec (.refused node tag reason) s = .next (ended.after
        (.ended k (some i.tag) i.order (.refused reason) :: moveEnds i.order ++ s.copyWork k node tag (.refused reason)))) ∧
    ((∀ i, x.inFlight = some i → i.tag ≠ tag.toNat) →
      exec (.done node tag value) s = .next (u.after (.raise .strayReport (.slot k) tag.toNat ::
        (if x.kind? = some .knife ∧ x.lastStrokeTag = some tag.toNat then [.unbidden (tag.toNat + 256)] else []) ++
        s.copyWork k node tag (.done value))) ∧
      exec (.refused node tag reason) s = .next (u.after (.raise .strayReport (.slot k) (256 + tag.toNat) ::
        s.copyWork k node tag (.refused reason))))

/-- POS sets the slot's last reported position, TOP or AWAY for a KNIFE; GUARD_STATE of a GUARD slot sets its last guard state and raises
GUARD_OPEN in the cases of R125; from another kind it is a STRAY_REPORT. -/
def Obligations.PosAndGuardStateSetSlot : Prop :=
  ∀ (s : State) (node k : Nat) (tag : Byte), s.hears node k →
    let u := s.reported
    let x := s.slot k
    (∀ value : BitVec 32,
      let v : Position := if x.kind? = some .knife then (if value = 0 then .top else .away) else .value value.toNat
      exec (.pos node tag value) s = .next ((u.setSlot k { x with position := some v }).after
        (s.copyWork k node tag (.pos value)))) ∧
    (∀ isOpen locked : Bool, x.kind? = some .guard → exec (.guardState node tag isOpen locked) s = .next
      ((u.setSlot k { x with guard := some ⟨isOpen, locked⟩ }).after
        ((if isOpen = true ∧ (s.cell.state = .starting ∨ s.cell.state = .running ∨ s.cell.state = .stopping ∨
              s.cell.state = .waking ∨ s.cell.state = .parking) then [.raise .guardOpen (.slot k) 0]
          else if isOpen = false ∧ locked = false ∧ s.cell.state = .running then [.raise .guardOpen (.slot k) 1]
          else []) ++ s.copyWork k node tag (.guardState isOpen locked)))) ∧
    (∀ isOpen locked : Bool, x.kind? ≠ some .guard → exec (.guardState node tag isOpen locked) s = .next
      (u.after (.raise .strayReport (.slot k) 514 :: s.copyWork k node tag (.guardState isOpen locked))))

/-- STROKE_BEGIN from the KNIFE slot with the permit's tag while the gate is OPEN: the window stops, the gate is in STROKE, the stroke timer
starts at STROKE_TIME. Any other from a KNIFE slot is an unbidden stroke: LOCKED_OUT, the permit's lay back in POSITIONING and INTERRUPTED,
UNBIDDEN_STROKE with the tag (its subject by log 25), ENABLE(off), which a gate that is LOCKED_OUT already is given again in every cell state
(log 37). From another kind it is a STRAY_REPORT. -/
def Obligations.StrokeBeginReachesGate : Prop :=
  ∀ (s : State) (node k : Nat) (tag : Byte), s.hears node k →
    let u := s.reported
    let x := s.slot k
    let copies := s.copyWork k node tag .strokeBegin
    let bidden := s.gate.state = .opened ∧ s.working .knife = some k ∧ ∃ p, s.gate.permit = some p ∧ p.tag = tag.toNat
    let lockedOut := { u with gate := { s.gate with state := .lockedOut, permit := none, window := none, timer := none } }
    (x.kind? = some .knife → bidden → exec (.strokeBegin node tag) s = .next (State.after
      { u with gate := { s.gate with state := .stroke, window := none, timer := some ⟨0, s.cell.params.strokeTime⟩ } } copies)) ∧
    (x.kind? = some .knife → ¬bidden → s.gate.permit = none → exec (.strokeBegin node tag) s = .next (lockedOut.after
      ([.raise .unbiddenStroke s.knifeSubject tag.toNat, .lockOutOrder] ++ copies))) ∧
    (∀ p, x.kind? = some .knife → ¬bidden → s.gate.permit = some p → exec (.strokeBegin node tag) s = .next (State.after
      ((lockedOut.updateLay p.lay fun l => { l with phase := some .positioning }).takeDeferred)
      ([.raise .interrupted (.lay p.lay) p.step, .raise .unbiddenStroke s.knifeSubject tag.toNat, .lockOutOrder] ++ copies))) ∧
    (x.kind? ≠ some .knife → exec (.strokeBegin node tag) s = .next
      (u.after (.raise .strayReport (.slot k) 513 :: copies)))

/-- FAULT records the code as the slot's last station fault code, raises STATION_FAULT with it, and takes a READY or PROBING slot to
FAULTED; nothing else of the slot changes. That it is FAULTED before the event is taken is the model's choice (log 52). -/
def Obligations.FaultFaultsSlot : Prop :=
  ∀ (s : State) (node k : Nat) (tag code : Byte), s.hears node k →
    exec (.fault node tag code) s = .next ((s.reported.setSlot k { s.slot k with
      faultCode := some code
      state := if (s.slot k).state = .ready ∨ (s.slot k).state = .probing then .faulted else (s.slot k).state }).after
        (.raise .stationFault (.slot k) code.toNat :: s.copyWork k node tag (.fault code)))

/-- BUTTON of a station with BUTTON: NONE raises nothing, NOTIFY raises BUTTON with detail 0, STOP_CELL with detail 1 and asks Cell Control
for a STOP, which RUNNING alone takes; of a station without BUTTON it is a STRAY_REPORT. -/
def Obligations.ButtonActs : Prop :=
  ∀ (s : State) (node k : Nat) (tag : Byte), s.hears node k →
    let copies := s.copyWork k node tag .button
    let can := (s.slot k).caps.any Caps.button
    (∀ c, can = true → (s.slot k).config = some c → c.button = .none → exec (.button node tag) s = .next (s.reported.after copies)) ∧
    (∀ c, can = true → (s.slot k).config = some c → c.button = .notify →
      exec (.button node tag) s = .next (s.reported.after (.raise .button (.slot k) 0 :: copies))) ∧
    (∀ c, can = true → (s.slot k).config = some c → c.button = .stopCell →
      exec (.button node tag) s = .next (s.reported.after ([.raise .button (.slot k) 1, .stopAsked] ++ copies))) ∧
    (can = false → exec (.button node tag) s = .next (s.reported.after (.raise .strayReport (.slot k) 515 :: copies))) ∧
    perform .stopAsked s = (s, if s.cell.state = .running then [.enter .stopping] else [])

/-- PRESENCE UP raises PRESENCE_CHANGED with detail 1 and changes no state. PRESENCE DOWN takes the slot to ABSENT; the order in flight and
the announced STOP, in this order (log 40), are lost, their frames withdrawn where they still wait (log 43), and handed over first; then
PRESENCE_CHANGED with detail 0, and STATION_LOST but from ABSENT or from a removable, idle station of a cell that is not RUNNING. -/
def Obligations.PresenceTakesSlotAbsent : Prop :=
  ∀ (s : State) (node k : Nat) (tag : Byte), s.hears node k →
    let u := s.reported
    let x := s.slot k
    let tags := (x.inFlight.map InFlight.tag).toList ++ (x.announced.map Announced.tag).toList
    exec (.presence node tag true) s = .next
      (u.after (.raise .presenceChanged (.slot k) 1 :: s.copyWork k node tag (.presence true))) ∧
    exec (.presence node tag false) s = .next
      (((u.withdraw k tags).setSlot k { x with
        state := .absent, caps := none, inFlight := none, announced := none, position := none, guard := none, drive := false
        lastStrokeTag := none }).after
        (((x.inFlight.map fun i => endTasks k (some i.tag) i.order .lost).getD []) ++
          ((x.announced.map fun a => endTasks k (some a.tag) a.order .lost).getD []) ++
          .raise .presenceChanged (.slot k) 0 ::
          (if x.state = .absent ∨ (x.config.any SlotConfig.removable = true ∧ x.inFlight = none ∧ s.cell.state ≠ .running) then []
            else [.raise .stationLost (.slot k) 0]) ++ s.copyWork k node tag (.presence false)))

/-- A report of any kind from a node that no configured slot names is counted and raises STRAY_REPORT with the address, and no slot is
handed it; one with an address above 31 fails check 6 (log 30); none is received while the ring is DOWN (log 7). -/
def Obligations.UnknownNodeIsStray : Prop :=
  ∀ (s : State) (node : Nat) (tag : Byte) (r : Report), s.resetHeld = false →
    (s.link.ringUp = true → node ≤ 31 → s.slotAt node = none → exec (r.command node tag) s = .next (State.after
      { s with link := { s.link with sStats := { s.link.sStats with
          good := bump32 s.link.sStats.good, reports := bump32 s.link.sStats.reports
          unknownNode := bump32 s.link.sStats.unknownNode } } }
      [.raise .strayReport .none node])) ∧
    (s.link.ringUp = true → 31 < node → exec (r.command node tag) s = .next (State.after
      { s with link := { s.link with sStats := { s.link.sStats with formatFailures := bump32 s.link.sStats.formatFailures } } }
      [.raise .linkFormat .none 1])) ∧
    (s.link.ringUp = false → exec (r.command node tag) s = .next s)

/-- Through the whole event of a report, whatever it leads to, the slot keeps what the report set in it: the position of a POS, the guard
state of a GUARD_STATE, the fault code of a FAULT; after a PRESENCE DOWN the slot is ABSENT without position, guard state or capabilities. -/
def Obligations.ReportedValuesStand : Prop :=
  ∀ (s t : State) (node k : Nat) (tag : Byte), s.hears node k → s.agenda = [] →
    (∀ value, exec (.pos node tag value) s = .next t →
      (t.slot k).position = some (if (s.slot k).kind? = some .knife then (if value = 0 then .top else .away) else .value value.toNat)) ∧
    (∀ isOpen locked, (s.slot k).kind? = some .guard → exec (.guardState node tag isOpen locked) s = .next t →
      (t.slot k).guard = some ⟨isOpen, locked⟩) ∧
    (∀ code, exec (.fault node tag code) s = .next t →
      (t.slot k).faultCode = some code ∧ (t.slot k).state ≠ .ready ∧ (t.slot k).config = (s.slot k).config) ∧
    (exec (.presence node tag false) s = .next t →
      (t.slot k).state = .absent ∧ (t.slot k).position = none ∧ (t.slot k).guard = none ∧ (t.slot k).caps = none)

/-- What no report and no timer expiry changes, whatever its event leads to: the management queue, the Program Store, the ticket queue, the
cell parameters, the lock and the ring, the U-port's receive flags and its statistics but copies dropped, every class and notice bit; a
timer expiry changes no S-port statistic either. -/
def Obligations.ReportsAndExpiriesKeepFrame : Prop :=
  (∀ (s t : State) (node : Nat) (tag : Byte) (r : Report), exec (r.command node tag) s = .next t →
    t.frame = State.frame { s with link := { s.link with sStats := t.link.sStats } }) ∧
  ∀ (s t : State) (c : Instr),
    (c = .fillTimerExpiry ∨ (∃ k, c = .orderTimerExpiry k) ∨ (∃ k, c = .identTimerExpiry k) ∨ c = .permitWindowExpiry ∨
      c = .strokeTimerExpiry ∨ c = .idleTimerExpiry ∨ c = .wakeSettleExpiry ∨ c = .lockWaitExpiry) →
    exec c s = .next t → t.frame = s.frame

/-! ### The links -/

/-- U_PORT_LOCK_GAINED: the port has lock and the idle transmitter takes what waits. Where no REPLY then waits the head request of the queue
is executed and answered, and where its REPLY is taken at once the next request too, whose REPLY waits; the others keep their order.
U_PORT_LOCK_LOST: the loss is counted and the frame being sent is cut off; a frame being received fails check 1. Each is without effect
where the lock is so already. -/
def Obligations.UPortLockChanges : Prop :=
  ∀ s : State, s.resetHeld = false →
    (s.link.uLock = false →
      let u := takeFrame { s with link := { s.link with uLock := true } }
      let executed := fun (v : State) (e : MgmtEntry) (rest : List MgmtEntry) =>
        let a := answerOf e.payload { v with mgmt := rest }
        takeFrame (a.state.answer (replyFrame e.tag e.payload a.result a.body))
      (s.mgmt = [] ∨ u.replyWaits = true → exec .uPortLockGained s = .next u) ∧
      ∀ e rest, s.mgmt = e :: rest → u.replyWaits = false →
        (executed u e rest).mgmt = rest ∧
        (rest = [] ∨ (executed u e rest).replyWaits = true → exec .uPortLockGained s = .next (executed u e rest)) ∧
        ∀ e' rest', rest = e' :: rest' → (executed u e rest).replyWaits = false →
          exec .uPortLockGained s = .next (executed (executed u e rest) e' rest') ∧
          (executed (executed u e rest) e' rest').mgmt = rest' ∧
          (executed (executed u e rest) e' rest').replyWaits = true) ∧
    (s.link.uLock = false → ∃ t, exec .uPortLockGained s = .next t ∧ t.link.uLock = true) ∧
    (s.link.uLock = true → exec .uPortLockGained s = .next s) ∧
    (s.link.uLock = true → exec (.uPortLockLost false) s = .next { s with link := { s.link with
      uLock := false, sending := none, uStats := { s.link.uStats with lockLosses := bump32 s.link.uStats.lockLosses } } }) ∧
    (s.link.uLock = true → exec (.uPortLockLost true) s = .next (State.after { s with link := { s.link with
        uLock := false, sending := none, uFlags := { s.link.uFlags with framing := true, sum := true }
        uStats := { s.link.uStats with
          lockLosses := bump32 s.link.uStats.lockLosses, checkFailures := bump32 s.link.uStats.checkFailures } } }
      [.raise .linkCheck .none 0])) ∧
    ∀ receiving, s.link.uLock = false → exec (.uPortLockLost receiving) s = .next s

/-- RING_UP changes no slot. RING_DOWN: the loss is counted, the output list is emptied and the frame being sent cut off, every configured
slot goes to ABSENT, each order in flight and announced STOP is lost and handed over in slot-number order (log 40), then STATION_LOST is
raised with detail 1 for each slot that was READY, in slot-number order; a frame being received fails check 1, its LINK_CHECK first (log
23). -/
def Obligations.RingChanges : Prop :=
  ∀ s : State, s.resetHeld = false →
    exec .ringUp s = .next { s with link := { s.link with ringUp := true } } ∧
    (∀ receiving, s.link.ringUp = false → exec (.ringDown receiving) s = .next s) ∧
    ∀ receiving, s.link.ringUp = true → exec (.ringDown receiving) s = .next (State.after
      { s with
        link := { s.link with
          ringUp := false, leaving := none, output := []
          sFlags := if receiving then { s.link.sFlags with framing := true, sum := true } else s.link.sFlags
          sStats := { s.link.sStats with
            lockLosses := bump32 s.link.sStats.lockLosses
            checkFailures := if receiving then bump32 s.link.sStats.checkFailures else s.link.sStats.checkFailures } }
        slots := s.slots.map fun x => if x.config.isSome then { x with
          state := .absent, caps := none, inFlight := none, announced := none, position := none, guard := none, drive := false
          lastStrokeTag := none } else x }
      ((if receiving then [.raise .linkCheck .none 1] else []) ++
        (s.slots.zipIdx.flatMap fun p => p.1.lostTasks p.2) ++
        (s.slotsWhere fun x => decide (x.state = .ready)).map fun k => .raise .stationLost (.slot k) 1))

/-- U_PORT_FRAME_END: the sent statistic of the frame's kind rises and the transmitter takes the next frame. Where no REPLY then waits the
head request of the queue is executed and answered, and where its REPLY is taken at once the next request too, whose REPLY waits; the others
keep their order. ORDER_FRAME_END: orders sent rises and the oldest frame of the output list begins to leave. -/
def Obligations.FrameEnds : Prop :=
  ∀ s : State, s.resetHeld = false →
    (s.link.sending = none → exec .uPortFrameEnd s = .next s) ∧
    (∀ f, s.link.sending = some f →
      let u := takeFrame { s with link := { s.link with sending := none, uStats :=
        match f.kind with
        | .reply | .directAnswer => { s.link.uStats with replies := bump32 s.link.uStats.replies }
        | .notice => { s.link.uStats with notices := bump32 s.link.uStats.notices }
        | .copy => { s.link.uStats with copies := bump32 s.link.uStats.copies } } }
      let executed := fun (v : State) (e : MgmtEntry) (rest : List MgmtEntry) =>
        let a := answerOf e.payload { v with mgmt := rest }
        takeFrame (a.state.answer (replyFrame e.tag e.payload a.result a.body))
      (s.mgmt = [] ∨ u.replyWaits = true → exec .uPortFrameEnd s = .next u) ∧
      ∀ e rest, s.mgmt = e :: rest → u.replyWaits = false →
        (executed u e rest).mgmt = rest ∧
        (rest = [] ∨ (executed u e rest).replyWaits = true → exec .uPortFrameEnd s = .next (executed u e rest)) ∧
        ∀ e' rest', rest = e' :: rest' → (executed u e rest).replyWaits = false →
          exec .uPortFrameEnd s = .next (executed (executed u e rest) e' rest') ∧
          (executed (executed u e rest) e' rest').mgmt = rest' ∧
          (executed (executed u e rest) e' rest').replyWaits = true) ∧
    (s.link.leaving = none → exec .orderFrameEnd s = .next s) ∧
    (s.link.leaving.isSome = true → exec .orderFrameEnd s = .next { s with link := { s.link with
      sStats := { s.link.sStats with orders := bump32 s.link.sStats.orders }
      leaving := s.link.output.head?
      output := s.link.output.tail } })

/-- The idle U-port transmitter with lock takes the oldest answer, and a DIRECT_ANSWER lowers the credit; else the owed notice of the lowest
kind, which is owed no more; else the oldest copy. Busy or without lock it takes nothing. A copy joins the copy queue's tail where it holds
fewer than 8; at 8 it is dropped: OVERRUN and SUM are set on the S-port, copies dropped rises, LINK_OVERRUN is raised with detail 1. -/
def Obligations.TransmitterTakesInOrder : Prop :=
  (∀ (s : State) (c : Copy),
    (s.link.copies.length < 8 → perform (.copy c) s = ({ s with link := { s.link with copies := s.link.copies ++ [c] } }, [])) ∧
    (8 ≤ s.link.copies.length → perform (.copy c) s = ({ s with link := { s.link with
        sFlags := { s.link.sFlags with overrun := true, sum := true }
        uStats := { s.link.uStats with copiesDropped := bump32 s.link.uStats.copiesDropped } } },
      [.raise .linkOverrun .none 1]))) ∧
  ∀ s : State,
    (s.link.sending.isSome = true ∨ s.link.uLock = false → takeFrame s = s) ∧
    (s.link.sending = none → s.link.uLock = true →
      (∀ f rest, s.link.answers = f :: rest → takeFrame s = { s with link := { s.link with
        sending := some f, answers := rest
        credit := if f.kind = .directAnswer then s.link.credit - 1 else s.link.credit } }) ∧
      (∀ i subject detail, s.link.answers = [] → i < 32 → (s.events.kindAt i).owed = some (subject, detail) →
        (∀ j < i, (s.events.kindAt j).owed = none) →
        takeFrame s = { s with
          link := { s.link with sending := some (noticeFrame i subject detail) }
          events := s.events.modifyKind i fun r => { r with owed := none } }) ∧
      (s.link.answers = [] → (∀ i < 32, (s.events.kindAt i).owed = none) →
        (∀ c rest, s.link.copies = c :: rest → takeFrame s = { s with link := { s.link with
          sending := some (copyFrame c), copies := rest } }) ∧
        (s.link.copies = [] → takeFrame s = s)))

/-- BAD_FRAME: the first check that fails decides; the frame reaches no block, the check's flag and SUM are set on its port, the failure is
counted, and LINK_CHECK (checks 1 and 2) or LINK_FORMAT (3 to 6) is raised with the port. A port that cannot receive takes none (log 7).
Check 1 fails a frame not delimited whole, shorter than 6 bytes, or of another byte count than 6 plus its length field; of the others,
check 2 fails a CRC that differs, check 3 a length above 240, check 4 a kind the port does not receive, check 5 a payload length the kind
does not allow, where a code of no order or report passes 1 to 5 bytes, and check 6 a wrong address or a payload that no value within its
ranges is encoded as. -/
def Obligations.BadFrameIsDiscarded : Prop :=
  (∀ port bytes, receive port false bytes = .rejected 1 (some .framing)) ∧
  (∀ port whole bytes, bytes.length < 6 → receive port whole bytes = .rejected 1 (some .framing)) ∧
  (∀ port whole (kind address tag length : Byte) rest, rest.length ≠ length.toNat + 2 →
    receive port whole (kind :: address :: tag :: length :: rest) = .rejected 1 (some .framing)) ∧
  (∀ port (kind address tag length hi lo : Byte) (payload : List Byte), payload.length = length.toNat →
    let sum := be16 (crc (kind :: address :: tag :: length :: payload))
    let got := receive port true (kind :: address :: tag :: length :: (payload ++ [hi, lo]))
    let wrongLength : Received := .rejected 5 (some .length)
    let wrongField : Received := .rejected 6 none
    (sum ≠ [hi, lo] → got = .rejected 2 (some .check)) ∧
    (sum = [hi, lo] → 240 < length.toNat → got = .rejected 3 (some .length)) ∧
    (sum = [hi, lo] → length.toNat ≤ 240 →
      (port = .u → kind ≠ 1 → kind ≠ 2 → kind ≠ 3 → got = .rejected 4 none) ∧
      (port = .s → kind ≠ 9 → got = .rejected 4 none) ∧
      (port = .u → kind = 1 →
        (payload.length ≠ 17 → got = wrongLength) ∧
        (payload.length = 17 → (address ≠ 0 ∨ ¬∃ t, ticketInRange t = true ∧ encodeTicket t = payload) → got = wrongField)) ∧
      (port = .u → kind = 2 → (payload = [] → got = wrongLength) ∧ (payload ≠ [] → address ≠ 0 → got = wrongField)) ∧
      (port = .u → kind = 3 →
        (payload = [] → got = wrongLength) ∧
        ∀ code args, payload = code :: args →
          (∀ o, orderCode o = code.toNat →
            ((encodeOrder o).length ≠ payload.length → got = wrongLength) ∧
            ((encodeOrder o).length = payload.length → (address.toNat < 1 ∨ 30 < address.toNat ∨
              ¬∃ q, orderInRange q = true ∧ encodeOrder q = payload) → got = wrongField)) ∧
          ((∀ o, orderCode o ≠ code.toNat) → got = if payload.length ≤ 5 then wrongField else wrongLength)) ∧
      (port = .s → kind = 9 →
        (payload = [] → got = wrongLength) ∧
        ∀ code args, payload = code :: args →
          (∀ r, reportCode r = code.toNat →
            ((encodeReport r).length ≠ payload.length → got = wrongLength) ∧
            ((encodeReport r).length = payload.length → (31 < address.toNat ∨ ¬∃ q, encodeReport q = payload) → got = wrongField)) ∧
          ((∀ r, reportCode r ≠ code.toNat) → got = if payload.length ≤ 5 then wrongField else wrongLength)))) ∧
  ∀ (s : State) (whole : Bool) (bytes : List Byte), s.resetHeld = false →
    (s.link.uLock = false → exec (.badFrame .u whole bytes) s = .next s) ∧
    (s.link.ringUp = false → exec (.badFrame .s whole bytes) s = .next s) ∧
    ∀ check flag,
      let raised : List Task := [.raise (if check ≤ 2 then .linkCheck else .linkFormat) .none 0]
      let raisedS : List Task := [.raise (if check ≤ 2 then .linkCheck else .linkFormat) .none 1]
      let marked := fun (r : RxFlags) => match flag with
        | some RxFlag.check => { r with check := true, sum := true }
        | some RxFlag.framing => { r with framing := true, sum := true }
        | some RxFlag.length => { r with length := true, sum := true }
        | none => r
      (s.link.uLock = true → receive .u whole bytes = .rejected check flag →
        exec (.badFrame .u whole bytes) s = .next (State.after { s with link := { s.link with
          uFlags := marked s.link.uFlags
          uStats := if check ≤ 2 then { s.link.uStats with checkFailures := bump32 s.link.uStats.checkFailures }
            else { s.link.uStats with formatFailures := bump32 s.link.uStats.formatFailures } } } raised)) ∧
      (s.link.ringUp = true → receive .s whole bytes = .rejected check flag →
        exec (.badFrame .s whole bytes) s = .next (State.after { s with link := { s.link with
          sFlags := marked s.link.sFlags
          sStats := if check ≤ 2 then { s.link.sStats with checkFailures := bump32 s.link.sStats.checkFailures }
            else { s.link.sStats with formatFailures := bump32 s.link.sStats.formatFailures } } } raisedS))

/-- A TICKET is counted and admitted in its arrival event where the queue is empty and a record free; it waits at the queue's tail where the
queue holds fewer than 4; else it is lost with TICKET_LOST. One with a field out of range fails check 6 (R52, log 30). -/
def Obligations.TicketJoinsOrIsLost : Prop :=
  ∀ (s : State) (t : Ticket), s.listens →
    let u := { s with link := { s.link with uStats := { s.link.uStats with
      good := bump32 s.link.uStats.good, tickets := bump32 s.link.uStats.tickets } } }
    (ticketInRange t = true → s.intake.tickets = [] → s.freeRecord.isSome = true →
      exec (.ticket t) s = exec .admission { u with intake := { s.intake with tickets := [t] } }) ∧
    (ticketInRange t = true → s.intake.tickets = [] → s.freeRecord = none →
      exec (.ticket t) s = .next (State.after { u with intake := { s.intake with tickets := [t] } } [])) ∧
    (ticketInRange t = true → s.intake.tickets ≠ [] → s.intake.tickets.length < 4 →
      exec (.ticket t) s = .next (State.after { u with intake := { s.intake with tickets := s.intake.tickets ++ [t] } } [])) ∧
    (ticketInRange t = true → 4 ≤ s.intake.tickets.length →
      exec (.ticket t) s = .next (u.after [.raise .ticketLost (.job t.job) t.pile])) ∧
    (ticketInRange t = false → exec (.ticket t) s = .next (State.after
      { s with link := { s.link with uStats := { s.link.uStats with formatFailures := bump32 s.link.uStats.formatFailures } } }
      [.raise .linkFormat .none 0]))

/-- A MGMT frame is executed in its arrival event where no request and no REPLY waits; it waits at the tail of a queue of fewer than 4 while a
REPLY waits; at a full queue it is an overrun: OVERRUN and SUM set, LINK_OVERRUN raised with detail 0, no REPLY. -/
def Obligations.MgmtFrameIsQueued : Prop :=
  ∀ (s : State) (tag : Byte) (payload : List Byte), 1 ≤ payload.length → payload.length ≤ 240 →
    (s.awaitsRequest →
      let a := answerOf payload s.taking
      exec (.mgmt tag payload) s = .next (takeFrame (a.state.answer (replyFrame tag payload a.result a.body)))) ∧
    (s.listens → s.link.sending.isSome = true → s.replyWaits = true → s.mgmt.length < 4 →
      exec (.mgmt tag payload) s = .next { s with
        mgmt := s.mgmt ++ [⟨tag, payload⟩]
        link := { s.link with uStats := { s.link.uStats with
          good := bump32 s.link.uStats.good, requests := bump32 s.link.uStats.requests } } }) ∧
    (s.listens → s.link.sending.isSome = true → s.replyWaits = true → 4 ≤ s.mgmt.length →
      exec (.mgmt tag payload) s = .next (State.after { s with link := { s.link with
        uFlags := { s.link.uFlags with overrun := true, sum := true }
        uStats := { s.link.uStats with
          good := bump32 s.link.uStats.good, requestOverruns := bump32 s.link.uStats.requestOverruns } } }
        [.raise .linkOverrun .none 0]))

/-- A DIRECT is taken while the credit is below 16, which then rises. It is posted to its slot with its tag as answer tag where the tests of
R177 hold; else its DIRECT_ANSWER says NOT_PERMITTED, or QUEUE_FULL where only the posted queue has no room. With the credit at 16 it is an
overrun. A DIRECT to the working CLAMP or GAUGE slot makes the record UNKNOWN. When the order ends, its DIRECT_ANSWER joins the answer list's
tail with the slot's node, the answer tag and the end: DONE with its value, REFUSED with its reason, TIMEOUT, and REFUSED ABORTED where it
was dropped or lost. One with an address outside 1..30 or an argument out of range fails check 6 and takes no credit (log 30). -/
def Obligations.DirectIsTested : Prop :=
  (∀ (s : State) (k : Nat) (tag : Option Nat) (o : OrderKind) (answerTag : Byte) (c : SlotConfig), (s.slot k).config = some c →
    let ends := fun (how : End) => perform (.endFor k tag o (.direct answerTag) how) s
    let answered := fun (payload : List Byte) => (({ s with link := { s.link with answers := s.link.answers ++
      [{ kind := .directAnswer, address := c.node, tag := answerTag, payload := payload }] } }, []) : Effect)
    (∀ value, ends (.done value) = answered (0 :: be32 value)) ∧
    (∀ reason, ends (.refused reason) = answered (1 :: nat32 (reasonIndex reason))) ∧
    ends .timedOut = answered (2 :: nat32 0) ∧
    ends .dropped = answered (1 :: nat32 (reasonIndex .aborted)) ∧ ends .lost = answered (1 :: nat32 (reasonIndex .aborted))) ∧
  (∀ (s : State) (node : Nat) (tag : Byte) (o : OrderKind), s.listens → node < 1 ∨ 30 < node ∨ orderInRange o = false →
    exec (.direct node tag o) s = .next (State.after
      { s with link := { s.link with uStats := { s.link.uStats with formatFailures := bump32 s.link.uStats.formatFailures } } }
      [.raise .linkFormat .none 0])) ∧
  ∀ (s : State) (node : Nat) (tag : Byte) (o : OrderKind), s.listens → 1 ≤ node → node ≤ 30 → orderInRange o = true →
    let taken := fun (accepted refused : Nat) (answers : List UFrame) (q : Sequencer) => { s with
      seq := q
      link := { s.link with
        credit := s.link.credit + 1
        answers := s.link.answers ++ answers
        uStats := { s.link.uStats with
          good := bump32 s.link.uStats.good, directsAccepted := accepted, directsRefused := refused } } }
    let refusal := fun (r : DirectResult) =>
      (taken s.link.uStats.directsAccepted (bump32 s.link.uStats.directsRefused) [directAnswer node tag r] s.seq).after []
    let permitted := fun (x : Slot) =>
      x.state = .ready ∧ (∀ kind, actionKind o = some kind → x.kind? = some kind) ∧ o ≠ .stroke ∧ o ≠ .ident ∧
        (∃ c, x.config = some c ∧ c.permitted.getLsbD (orderCode o) = true) ∧
        ((actionKind o).isSome = true → s.cell.state ≠ .starting ∧ s.cell.state ≠ .running ∧ s.cell.state ≠ .stopping ∧
          s.cell.state ≠ .waking)
    (16 ≤ s.link.credit → exec (.direct node tag o) s = .next (State.after { s with link := { s.link with
        uFlags := { s.link.uFlags with overrun := true, sum := true }
        uStats := { s.link.uStats with
          good := bump32 s.link.uStats.good, directOverruns := bump32 s.link.uStats.directOverruns } } }
      [.raise .linkOverrun .none 0])) ∧
    (s.link.credit < 16 → s.slotAt node = none → exec (.direct node tag o) s = .next (refusal .notPermitted)) ∧
    (∀ k, s.link.credit < 16 → s.slotAt node = some k →
      (¬permitted (s.slot k) → exec (.direct node tag o) s = .next (refusal .notPermitted)) ∧
      (permitted (s.slot k) → 4 ≤ (s.slot k).posted.length → exec (.direct node tag o) s = .next (refusal .queueFull)) ∧
      (permitted (s.slot k) → (s.slot k).posted.length < 4 → exec (.direct node tag o) s = .next
        ((taken (bump32 s.link.uStats.directsAccepted) s.link.uStats.directsRefused [] { s.seq with
          clamp := if s.working .clamp = some k then .unknown else s.seq.clamp
          gauge := if s.working .gauge = some k then .unknown else s.seq.gauge }).after
          [.post k ⟨o, [.direct tag]⟩])))

/-- A good frame's bytes are received as the frame they carry: a TICKET, a MGMT, a DIRECT and a REPORT, with every field at every value the
encoding admits. -/
def Obligations.FramesRoundTrip : Prop :=
  (∀ (t : Ticket) (tag : Byte), ticketInRange t = true →
    receive .u true (Envelope.bytes ⟨1, 0, tag, encodeTicket t⟩) = .ticket t) ∧
  (∀ (tag : Byte) (payload : List Byte), 1 ≤ payload.length → payload.length ≤ 240 →
    receive .u true (Envelope.bytes ⟨2, 0, tag, payload⟩) = .mgmt tag payload) ∧
  (∀ (node : Nat) (tag : Byte) (o : OrderKind), 1 ≤ node → node ≤ 30 → orderInRange o = true →
    receive .u true (Envelope.bytes ⟨3, byteOf node, tag, encodeOrder o⟩) = .direct node tag o) ∧
  (∀ (node : Nat) (tag : Byte) (r : Report), node ≤ 31 →
    receive .s true (Envelope.bytes ⟨9, byteOf node, tag, encodeReport r⟩) = .report node tag r)

/-- A management request is read from its payload as it was written, with every field at every value the encoding admits. -/
def Obligations.RequestsRoundTrip : Prop :=
  ∀ r : Request, (∀ data, r = .echo data → data.length ≤ 238) → (∀ p steps, r = .loadProgram p steps → steps.length ≤ 255) →
    parseRequest (encodeRequest r) = some r

/-! ### Requests that change no table -/

/-- ECHO is taken in every cell state and answered OK with the same bytes in the same order; it changes no state but the links' own and the
owed notices a frame sent takes with it. With a data byte more than 238 the request is answered BAD_REQUEST. -/
def Obligations.EchoReturnsBytes : Prop :=
  ∀ (s : State) (tag : Byte) (data : List Byte), s.awaitsRequest →
    (data.length ≤ 238 → ∃ t, exec (.echo tag data) s = .next t ∧ t = s.taking.answered tag (.echo data) .ok data ∧ s.sameButLinks t) ∧
    (data.length = 239 → exec (.echo tag data) s = .next (s.taking.answered tag (.echo data) .badRequest []))

/-- The READ rows without an argument answer OK with the view of the state they find, and change nothing; DELIVERY_HEAD answers EMPTY on an
empty Delivery List and still carries its body; LINK with the clear option clears the receive flags of both ports after the view. The form
of some fields (log 21), and which of two moves in flight ZONES shows (log 48), are the model's choices. -/
def Obligations.ReadRowsAnswerViews : Prop :=
  ∀ (s : State) (tag : Byte), s.awaitsRequest →
    let u := s.taking
    exec (.readCell tag) s = .next (u.answered tag (.read 0 0 false) .ok (viewCell u)) ∧
    exec (.readZones tag) s = .next (u.answered tag (.read 3 0 false) .ok (viewZones u)) ∧
    exec (.readJobs tag) s = .next (u.answered tag (.read 5 0 false) .ok (viewJobs u)) ∧
    exec (.readEvents tag) s = .next (u.answered tag (.read 7 0 false) .ok (viewEvents u)) ∧
    exec (.readGate tag) s = .next (u.answered tag (.read 8 0 false) .ok (viewGate u)) ∧
    exec (.readDeliveryHead tag) s = .next
      (u.answered tag (.read 9 0 false) (if s.delivery.records = [] then .empty else .ok) (viewDeliveryHead u)) ∧
    exec (.readLink tag false) s = .next (u.answered tag (.read 10 0 false) .ok (viewLink u)) ∧
    exec (.readLink tag true) s = .next (State.answered { u with link := { u.link with
      uFlags := ⟨false, false, false, false, false⟩, sFlags := ⟨false, false, false, false, false⟩ } }
      tag (.read 10 0 true) .ok (viewLink u))

/-- The READ rows with an argument answer the view of the record named: BAD_ARG for a number out of range, NOT_FOUND for a free lay record
or a job without an entry; they change nothing. The form of some fields, "empty" in view PROGRAM among them, is the model's choice (log 21). -/
def Obligations.ReadRowsByNumber : Prop :=
  ∀ (s : State) (tag : Byte) (n : BitVec 16), s.awaitsRequest →
    let u := s.taking
    (8 ≤ n.toNat → exec (.readLay tag n) s = .next (u.answered tag (.read 1 n false) .badArg [])) ∧
    (n.toNat < 8 → s.lay? n.toNat = none → exec (.readLay tag n) s = .next (u.answered tag (.read 1 n false) .notFound [])) ∧
    (∀ l, n.toNat < 8 → s.lay? n.toNat = some l →
      exec (.readLay tag n) s = .next (u.answered tag (.read 1 n false) .ok (viewLay l))) ∧
    (12 ≤ n.toNat → exec (.readSlot tag n) s = .next (u.answered tag (.read 2 n false) .badArg [])) ∧
    (n.toNat < 12 → exec (.readSlot tag n) s = .next (u.answered tag (.read 2 n false) .ok (viewSlot (s.slot n.toNat)))) ∧
    (n.toNat = 0 → exec (.readJob tag n) s = .next (u.answered tag (.read 4 n false) .badArg [])) ∧
    (n.toNat ≠ 0 → s.job? n.toNat = none → exec (.readJob tag n) s = .next (u.answered tag (.read 4 n false) .notFound [])) ∧
    (∀ e, n.toNat ≠ 0 → s.job? n.toNat = some e →
      exec (.readJob tag n) s = .next (u.answered tag (.read 4 n false) .ok (viewJob s e))) ∧
    (64 ≤ n.toNat → exec (.readProgram tag n) s = .next (u.answered tag (.read 6 n false) .badArg [])) ∧
    (n.toNat < 64 → exec (.readProgram tag n) s = .next (u.answered tag (.read 6 n false) .ok (viewProgram s n.toNat)))

/-- BAD_REQUEST: a MGMT payload that does not parse is answered BAD_REQUEST with the code as received and no body, and changes nothing else;
one of no byte fails check 5, one of more than 240 fails check 3 (log 30). What parses is the model's reading in two fields (log 22). -/
def Obligations.UnparsedRequestIsAnswered : Prop :=
  ∀ (s : State) (tag : Byte) (payload : List Byte), s.awaitsRequest →
    (1 ≤ payload.length → payload.length ≤ 240 → parseRequest payload = none →
      exec (.badRequest tag payload) s = .next (takeFrame (s.taking.answer
        { kind := .reply, address := 0, tag := tag, payload := [payload.headD 0, 1] }))) ∧
    (payload = [] → exec (.badRequest tag payload) s = .next (State.after { s with link := { s.link with
        uFlags := { s.link.uFlags with length := true, sum := true }
        uStats := { s.link.uStats with formatFailures := bump32 s.link.uStats.formatFailures } } } [.raise .linkFormat .none 0])) ∧
    (240 < payload.length → exec (.badRequest tag payload) s = .next (State.after { s with link := { s.link with
        uFlags := { s.link.uFlags with length := true, sum := true }
        uStats := { s.link.uStats with formatFailures := bump32 s.link.uStats.formatFailures } } } [.raise .linkFormat .none 0]))

/-! ### Requests that load tables -/

/-- LOAD_CELL: BAD_STATE outside OFF, STANDBY and HALTED; then BAD_ARG where a parameter would leave its range or GAUGE_MIN exceed GAUGE_MAX;
else every carried value is written, the others kept, and a changed KNIFE_WEAR_LIMIT clears wear reported. -/
def Obligations.LoadCellWritesParameters : Prop :=
  ∀ (s : State) (tag : Byte) (c : CellLoad), s.awaitsRequest →
    let u := s.taking
    let resting := s.cell.state = .off ∨ s.cell.state = .standby ∨ s.cell.state = .halted
    let keep := fun (v : Option (BitVec 32)) (old : Nat) => match v with
      | some w => w.toNat
      | none => old
    let p := s.cell.params
    let q : CellParams := {
      gaugeMin := keep c.gaugeMin p.gaugeMin, gaugeMax := keep c.gaugeMax p.gaugeMax, tableWidth := keep c.tableWidth p.tableWidth
      clampMaxH := keep c.clampMaxH p.clampMaxH, fillTime := keep c.fillTime p.fillTime
      permitWindow := keep c.permitWindow p.permitWindow, strokeTime := keep c.strokeTime p.strokeTime
      probeTimeout := keep c.probeTimeout p.probeTimeout, idlePark := keep c.idlePark p.idlePark
      wakeSettle := keep c.wakeSettle p.wakeSettle, knifeWearLimit := keep c.knifeWearLimit p.knifeWearLimit }
    let valid := q.gaugeMin ≤ 400000 ∧ (1 ≤ q.gaugeMax ∧ q.gaugeMax ≤ 400000) ∧ (1 ≤ q.tableWidth ∧ q.tableWidth ≤ 400000) ∧
      (1 ≤ q.clampMaxH ∧ q.clampMaxH ≤ 400000) ∧ (1 ≤ q.fillTime ∧ q.fillTime ≤ 600000) ∧
      (1 ≤ q.permitWindow ∧ q.permitWindow ≤ 10000) ∧ (1 ≤ q.strokeTime ∧ q.strokeTime ≤ 60000) ∧
      (1 ≤ q.probeTimeout ∧ q.probeTimeout ≤ 10000) ∧ q.idlePark ≤ 3600000 ∧ q.wakeSettle ≤ 60000 ∧ q.gaugeMin ≤ q.gaugeMax
    (¬resting → exec (.loadCell tag c) s = .next (u.answered tag (.loadCell c) .badState [])) ∧
    (resting → ¬valid → exec (.loadCell tag c) s = .next (u.answered tag (.loadCell c) .badArg [])) ∧
    (resting → valid → ∃ t, exec (.loadCell tag c) s = .next t ∧ t.cell.params = q ∧
      t = (State.worked { u with
        cell := { u.cell with params := q }
        gate := { u.gate with wearReported := u.gate.wearReported && decide (q.knifeWearLimit = p.knifeWearLimit) } } []).answered
          tag (.loadCell c) .ok [])

/-- LOAD_SLOT: BAD_STATE outside OFF and STANDBY; BAD_ARG for a slot number above 11, a field out of range or a node another configured slot
holds; else the slot's orders end as dropped and their frames are withdrawn, then the configuration is written: ABSENT with a kind, UNUSED
with none, next tag and lamp state kept, every other condition field at its default. The order in which the dropped orders are handed over,
and so in which the DIRECT_ANSWERs of the DIRECT orders among them are queued, is the model's choice (log 44; R130 gives none): in flight,
announced, posted from the oldest, waiting from the oldest. -/
def Obligations.LoadSlotWritesConfiguration : Prop :=
  (∀ (s : State) (tag slot : Byte) (config : Option SlotLoad), s.awaitsRequest →
    let u := s.taking
    let k := slot.toNat
    let r : Request := .loadSlot slot config
    let taken := s.cell.state = .off ∨ s.cell.state = .standby
    (¬taken → exec (.loadSlot tag slot config) s = .next (u.answered tag r .badState [])) ∧
    (taken → 12 ≤ k → exec (.loadSlot tag slot config) s = .next (u.answered tag r .badArg [])) ∧
    (∀ load, taken → k < 12 → config = some load → slotConfigOf load = none →
      exec (.loadSlot tag slot config) s = .next (u.answered tag r .badArg [])) ∧
    (∀ load c, taken → k < 12 → config = some load → slotConfigOf load = some c →
      (∃ j < s.slots.length, j ≠ k ∧ ((s.slot j).config.any fun d => decide (d.node = c.node)) = true) →
      exec (.loadSlot tag slot config) s = .next (u.answered tag r .badArg [])) ∧
    (∀ c : Option SlotConfig, taken → k < 12 →
      ((config = none ∧ c = none) ∨ ∃ load d, config = some load ∧ slotConfigOf load = some d ∧ c = some d ∧
        ∀ j < s.slots.length, j ≠ k → ((s.slot j).config.any fun e => decide (e.node = d.node)) = false) →
      exec (.loadSlot tag slot config) s = .next
        ((((u.withdraw k (s.slot k).tags).setSlot k { s.slot k with inFlight := none, announced := none, posted := [], waiting := [] }).worked
          ((s.slot k).orders.flatMap (fun o => endTasks k none o .dropped) ++ [.writeSlot k c])).answered tag r .ok []))) ∧
  ∀ (s : State) (k : Nat) (c : Option SlotConfig), (s.slot k).orders = [] → k < s.slots.length →
    ∃ y, perform (.writeSlot k c) s = (s.setSlot k y, []) ∧ y.config = c ∧ y.state = (if c.isSome then .absent else .unused) ∧
      y.nextTag = (s.slot k).nextTag ∧ y.lamp = (s.slot k).lamp ∧ y.orders = [] ∧ y.caps = none ∧ y.position = none ∧ y.guard = none ∧
      y.faultCode = none ∧ y.drive = false ∧ y.lastStrokeTag = none ∧
      y.lampPending = (match c with
        | none => none
        | some d => match d.lamp with
          | .fixed v => some v
          | .auto => if (s.slot k).lamp = .blink then none else some .blink)

/-- LOAD_SEVERITY: the kind above 31 or no class code is BAD_ARG; another class for a fixed kind is FIXED_KIND; NOTE for a changeable kind is
BAD_ARG; else the class and notice bit carried are written for that kind alone, and a notice bit turned off withdraws its owed notice. -/
def Obligations.LoadSeverityWritesClass : Prop :=
  ∀ (s : State) (tag kind : Byte) (cls : Option Byte) (notice : Option Bool), s.awaitsRequest →
    let u := s.taking
    let i := kind.toNat
    let old := (s.events.kindAt i).cls
    let answer := fun (v : State) (r : Result) => Host.Outcome.next (φ := Fault) (ρ := Refusal) (v.answered tag (.loadSeverity kind cls notice) r [])
    let written := fun (c : EventClass) => State.worked { u with events := u.events.modifyKind i fun r => { r with
      cls := c
      notice := notice.getD r.notice
      owed := if notice = some false then none else r.owed } } []
    (32 ≤ i → exec (.loadSeverity tag kind cls notice) s = answer u .badArg) ∧
    (i < 32 → cls = none → exec (.loadSeverity tag kind cls notice) s = answer (written old) .ok) ∧
    ∀ code, i < 32 → cls = some code →
      (classOfCode code.toNat = none → exec (.loadSeverity tag kind cls notice) s = answer u .badArg) ∧
      ∀ c, classOfCode code.toNat = some c →
        (c = old → exec (.loadSeverity tag kind cls notice) s = answer (written old) .ok) ∧
        (c ≠ old → fixedKind i = true → exec (.loadSeverity tag kind cls notice) s = answer u .fixedKind) ∧
        (c ≠ old → fixedKind i = false → c = .note → exec (.loadSeverity tag kind cls notice) s = answer u .badArg) ∧
        (c ≠ old → fixedKind i = false → c ≠ .note → exec (.loadSeverity tag kind cls notice) s = answer (written c) .ok)

/-- LOAD_PROGRAM: BAD_ARG for a number above 63 or a list that fails a static check of R29, IN_USE for a slot that holds steps and that a live
lay names; else the slot's content is replaced whole and no other slot changes. -/
def Obligations.LoadProgramReplacesSlot : Prop :=
  ∀ (s : State) (tag program : Byte) (steps : List RawStep), s.awaitsRequest → steps.length ≤ 47 →
    let u := s.taking
    let p := program.toNat
    let r : Request := .loadProgram program steps
    let bound := (s.program p).isSome = true ∧ ∃ n l, s.lay? n = some l ∧ l.program = some p
    (64 ≤ p ∨ programOf steps = none → exec (.loadProgram tag program steps) s = .next (u.answered tag r .badArg [])) ∧
    (∀ list, p < 64 → programOf steps = some list → bound →
      exec (.loadProgram tag program steps) s = .next (u.answered tag r .inUse [])) ∧
    (∀ list, p < 64 → programOf steps = some list → ¬bound → ∃ t, exec (.loadProgram tag program steps) s = .next t ∧
      t.programs = s.programs.set p (some list) ∧
      t = (State.worked { u with programs := s.programs.set p (some list) } []).answered tag r .ok []) ∧
    (∀ list, programOf steps = some list → 1 ≤ list.length ∧ list.length ≤ 40 ∧ list.length = steps.length ∧
      ∀ i st, list[i]? = some st → (st.isEnd = true ↔ i + 1 = list.length))

/-- ERASE_PROGRAM: a number above 63 is BAD_ARG, a protected slot IN_USE and kept; otherwise the slot becomes empty, no other slot changes,
and the reply is OK, also where the slot was empty. -/
def Obligations.EraseProgramEmptiesSlot : Prop :=
  ∀ (s : State) (tag program : Byte), s.awaitsRequest →
    let u := s.taking
    let p := program.toNat
    let r : Request := .eraseProgram program
    let bound := (s.program p).isSome = true ∧ ∃ n l, s.lay? n = some l ∧ l.program = some p
    (64 ≤ p → exec (.eraseProgram tag program) s = .next (u.answered tag r .badArg [])) ∧
    (p < 64 → bound → exec (.eraseProgram tag program) s = .next (u.answered tag r .inUse [])) ∧
    (p < 64 → ¬bound → ∃ t, exec (.eraseProgram tag program) s = .next t ∧ t.programs = s.programs.set p none ∧
      t.program p = none ∧ t = (State.worked { u with programs := s.programs.set p none } []).answered tag r .ok [])

/-- LOAD_JOB: a field out of range is BAD_ARG; the entry becomes most recent in place of any of its job, or of the least recent unpinned one
at 32 entries; with every entry pinned it is NO_ROOM; the AWAIT_JOB lays of the job bind, oldest first. -/
def Obligations.LoadJobWritesEntry : Prop :=
  ∀ (s : State) (tag : Byte) (j : JobLoad), s.awaitsRequest →
    let u := s.taking
    let waiting := fun (job : Nat) =>
      s.order.filter fun n => (s.lay? n).any fun l => decide (l.state = .awaitJob) && decide (l.job = job)
    let loaded := fun (e : JobEntry) (jobs : List JobEntry) =>
      (State.worked { u with intake := { s.intake with jobs := e :: jobs } } ((waiting e.job).map fun n => .bind n e)).answered
        tag (.loadJob j) .ok []
    (jobEntryOf j = none → exec (.loadJob tag j) s = .next (u.answered tag (.loadJob j) .badArg [])) ∧
    ∀ e, jobEntryOf j = some e →
      ((∃ f ∈ s.intake.jobs, f.job = e.job) ∨ s.intake.jobs.length < 32 →
        exec (.loadJob tag j) s = .next (loaded e (s.intake.jobs.filter fun f => decide (f.job ≠ e.job)))) ∧
      (∀ newer d older, (∀ f ∈ s.intake.jobs, f.job ≠ e.job) → 32 ≤ s.intake.jobs.length →
        s.intake.jobs = newer ++ d :: older → d.pinned = false → (∀ f ∈ older, f.pinned = true) →
        exec (.loadJob tag j) s = .next (loaded e (newer ++ older))) ∧
      ((∀ f ∈ s.intake.jobs, f.job ≠ e.job) → 32 ≤ s.intake.jobs.length → (∀ f ∈ s.intake.jobs, f.pinned = true) →
        exec (.loadJob tag j) s = .next (u.answered tag (.loadJob j) .noRoom []))

/-- DROP_JOB: job 0 is BAD_ARG, a job without an entry NOT_FOUND; otherwise the entry is removed, pinned or not, the others keep their order,
and no lay record and no Fill Request is changed by the removal. -/
def Obligations.DropJobRemovesEntry : Prop :=
  ∀ (s : State) (tag : Byte) (job : BitVec 16), s.awaitsRequest →
    let u := s.taking
    (job.toNat = 0 → exec (.dropJob tag job) s = .next (u.answered tag (.dropJob job) .badArg [])) ∧
    (job.toNat ≠ 0 → (∀ e ∈ s.intake.jobs, e.job ≠ job.toNat) →
      exec (.dropJob tag job) s = .next (u.answered tag (.dropJob job) .notFound [])) ∧
    (job.toNat ≠ 0 → (∃ e ∈ s.intake.jobs, e.job = job.toNat) → exec (.dropJob tag job) s = .next
      ((State.worked { u with intake := { s.intake with jobs := s.intake.jobs.filter fun e => decide (e.job ≠ job.toNat) } }
        []).answered tag (.dropJob job) .ok []))

/-- CLEAR_EVENTS is answered OK in every state; each listed flag is clear and each listed counter 0, and classes, notice bits, owed notices,
the halt cause and the deferred hold stand as they were. RESET_WEAR is answered OK in every cell state; the wear count is 0 and wear
reported clear, and the gate's other totals stand. -/
def Obligations.ClearEventsAndResetWear : Prop :=
  ∀ (s : State) (tag : Byte), s.awaitsRequest →
    let u := s.taking
    (∀ flags counters : BitVec 32, exec (.clearEvents tag flags counters) s = .next
      ((State.worked { u with events := { u.events with kinds := u.events.kinds.zipIdx.map fun q => { q.1 with
        flag := q.1.flag && !flags.getLsbD q.2
        counter := if counters.getLsbD q.2 then 0 else q.1.counter } } } []).answered tag (.clearEvents flags counters) .ok [])) ∧
    exec (.resetWear tag) s = .next
      ((State.worked { u with gate := { u.gate with wear := 0, wearReported := false } } []).answered tag (.cellControl 5) .ok [])

/-! ### Requests to Cell Control -/

/-- PROBE in OFF and STANDBY probes every configured slot where the ring is UP and enters PROBING; elsewhere it is BAD_STATE. RETRAIN probes
the ABSENT and FAULTED ones in every cell state. -/
def Obligations.ProbeAndRetrain : Prop :=
  ∀ (s : State) (tag : Byte), s.awaitsRequest →
    let u := s.taking
    let probed := fun (p : Slot → Bool) => { u with slots := s.slots.map fun (x : Slot) =>
      if s.link.ringUp = true ∧ x.config.isSome = true ∧ p x = true then ({ x with state := .probing } : Slot) else x }
    (s.cell.state = .off ∨ s.cell.state = .standby → exec (.probe tag) s = .next
      (((probed fun _ => true).worked [.enter .probing]).answered tag (.cellControl 0) .ok [])) ∧
    (s.cell.state ≠ .off → s.cell.state ≠ .standby → exec (.probe tag) s = .next (u.answered tag (.cellControl 0) .badState [])) ∧
    exec (.retrain tag) s = .next
      (((probed fun (x : Slot) => decide (x.state = SlotState.absent) || decide (x.state = SlotState.faulted)).worked []).answered tag (.cellControl 4) .ok [])

/-- START outside STANDBY is BAD_STATE; in STANDBY it is NOT_READY unless the six working slots are READY, the guard says closed and the gate
is not LOCKED_OUT; else the cell enters STARTING and ENABLE(on) goes to every READY slot with ENABLE, then LOCK to the GUARD slot. STOP in
RUNNING enters STOPPING, in STOPPING changes nothing, elsewhere is BAD_STATE. -/
def Obligations.StartAndStop : Prop :=
  ∀ (s : State) (tag : Byte), s.awaitsRequest →
    let u := s.taking
    let ready := s.kindsReady = true ∧ (∃ g, s.guardState = some g ∧ g.isOpen = false) ∧ s.gate.state ≠ .lockedOut
    (s.cell.state ≠ .standby → exec (.start tag) s = .next (u.answered tag (.cellControl 1) .badState [])) ∧
    (s.cell.state = .standby → ¬ready → exec (.start tag) s = .next (u.answered tag (.cellControl 1) .notReady [])) ∧
    (s.cell.state = .standby → ready → exec (.start tag) s = .next
      ((u.worked (.enter .starting ::
        ((s.slotsWhere fun x => decide (x.state = .ready) && x.caps.any Caps.enable).map fun k =>
          Task.post k ⟨.enable true, [.cell true]⟩) ++ s.postTo .guard .lock (.cell true))).answered tag (.cellControl 1) .ok [])) ∧
    (s.cell.state = .running → exec (.stop tag) s = .next ((u.worked [.enter .stopping]).answered tag (.cellControl 2) .ok [])) ∧
    (s.cell.state = .stopping → exec (.stop tag) s = .next ((u.worked []).answered tag (.cellControl 2) .ok [])) ∧
    (s.cell.state ≠ .running → s.cell.state ≠ .stopping →
      exec (.stop tag) s = .next (u.answered tag (.cellControl 2) .badState []))

/-- ACK_HALT is NOT_READY while the guard says open; otherwise in HALTED the lock-out ends and the cell enters STANDBY, whose entry clears the
halt cause; in OFF, PROBING and STANDBY the lock-out alone ends; elsewhere BAD_STATE. -/
def Obligations.AckHaltAcknowledges : Prop :=
  ∀ (s : State) (tag : Byte), s.awaitsRequest →
    let u := s.taking
    let isOpen := ∃ g, s.guardState = some g ∧ g.isOpen = true
    let unlocked := { u with gate := { u.gate with state := if u.gate.state = GateState.lockedOut then .closed else u.gate.state } }
    (isOpen → exec (.ackHalt tag) s = .next (u.answered tag (.cellControl 3) .notReady [])) ∧
    (¬isOpen → s.cell.state = .halted → exec (.ackHalt tag) s = .next
      ((unlocked.worked [.enter .standby]).answered tag (.cellControl 3) .ok [])) ∧
    (¬isOpen → s.cell.state = .off ∨ s.cell.state = .probing ∨ s.cell.state = .standby →
      exec (.ackHalt tag) s = .next ((unlocked.worked []).answered tag (.cellControl 3) .ok [])) ∧
    (¬isOpen → s.cell.state ≠ .halted → s.cell.state ≠ .off → s.cell.state ≠ .probing → s.cell.state ≠ .standby →
      exec (.ackHalt tag) s = .next (u.answered tag (.cellControl 3) .badState []))

/-- CELL_RESET outside OFF, STANDBY and HALTED is BAD_STATE; else the blocks take their cell-reset values and the cell enters OFF: no lay, no
ticket, no Fill Request, every zone free, the gate CLOSED, the records UNKNOWN, nothing in hand, no piece, no deferred hold, every configured
slot ABSENT with no order, lamp pending BLINK in AUTO unless the lamp blinks already, else absent; the frames that wait are withdrawn; each
DIRECT order cleared is answered REFUSED ABORTED, slot by slot in slot-number order, in a slot the order in flight, the announced STOP, the
posted and the waiting orders (log 41). Programs, the Job Map, configurations, next tags, lamp states, gate totals, toggle, Delivery List and
everything else of the links stand. -/
def Obligations.CellResetResets : Prop :=
  ∀ (s : State) (tag : Byte), s.awaitsRequest →
    let u := s.taking
    let resting := s.cell.state = .off ∨ s.cell.state = .standby ∨ s.cell.state = .halted
    (¬resting → exec (.cellReset tag) s = .next (u.answered tag (.cellControl 6) .badState [])) ∧
    (resting → ∃ v : State, exec (.cellReset tag) s = .next ((v.worked [.enter .off]).answered tag (.cellControl 6) .ok []) ∧
      v.lays = List.replicate 8 none ∧ v.order = [] ∧ v.intake = { s.intake with tickets := [], fill := none } ∧
      v.zones = ⟨⟨none, none⟩, ⟨none, none⟩, ⟨none, none⟩, ⟨none, none⟩⟩ ∧ v.seq = ⟨.unknown, .unknown, none, none⟩ ∧
      v.gate = { s.gate with state := .closed, permit := none, window := none, timer := none } ∧
      v.delivery = { s.delivery with pieces := [], finishQueue := [] } ∧ v.events = { u.events with deferred := none } ∧
      v.cell = { s.cell with idle := none, settle := none, lockWait := none, wakeWanted := false } ∧ v.programs = s.programs ∧
      v.mgmt = [] ∧ v.pending = s.pending ∧ v.resetHeld = false ∧ v.choices = s.choices ∧ v.agenda = [] ∧
      v.link = { u.link with
        output := []
        answers := u.link.answers ++ s.slots.flatMap fun (x : Slot) =>
          ((x.inFlight.map InFlight.order).toList ++ (x.announced.map Announced.order).toList ++ x.posted ++ x.waiting).flatMap fun o =>
            o.sources.filterMap fun
              | .direct t => some (directAnswer ((x.config.map SlotConfig.node).getD 0) t (.refused .aborted))
              | _ => none } ∧
      v.slots.length = s.slots.length ∧
      ∀ k < s.slots.length, (v.slot k).config = (s.slot k).config ∧ (v.slot k).nextTag = (s.slot k).nextTag ∧
        (v.slot k).lamp = (s.slot k).lamp ∧ (v.slot k).faultCode = (s.slot k).faultCode ∧
        (∀ c, (s.slot k).config = some c → (v.slot k).state = .absent ∧ (v.slot k).orders = [] ∧ (v.slot k).caps = none ∧
          (v.slot k).position = none ∧ (v.slot k).guard = none ∧ (v.slot k).lastStrokeTag = none ∧ (v.slot k).drive = false ∧
          (v.slot k).lampPending = (if c.lamp = .auto ∧ (s.slot k).lamp ≠ .blink then some .blink else none)) ∧
        ((s.slot k).config = none → v.slot k = s.slot k))

/-! ### Requests to a lay -/

/-- LAY_CONTROL HOLD of a lay: BAD_ARG above 7, NOT_FOUND for a free record, BAD_STATE in the cases of R18's last bullet, tested first, with
a lay in LIFT whose LOWER still waits to be posted or sent taken as one being lowered (the model's reading, log 8), and for a lay in the
finish queue, HELD or not (log 53); a HELD lay or one with
hold wanted is unchanged; at rest it enters HELD with cause REQUESTED; else hold wanted is set. -/
def Obligations.HoldIsTakenOrWanted : Prop :=
  ∀ (s : State) (tag lay : Byte), s.awaitsRequest →
    let u := s.taking
    let n := lay.toNat
    let r : Request := .layControl lay 0
    (8 ≤ n → exec (.layControlHold tag lay) s = .next (u.answered tag r .badArg [])) ∧
    (n < 8 → s.lay? n = none → exec (.layControlHold tag lay) s = .next (u.answered tag r .notFound [])) ∧
    ∀ l, n < 8 → s.lay? n = some l →
      let barred := n ∈ s.delivery.finishQueue ∨ l.state = .draining ∨ l.state = .finishing ∨
        (l.state = .moving ∧ l.zone = some .lift ∧ s.reservedFor n = false) ∨
        (l.state = .cutting ∧ l.phase = some .pushing) ∨ l.abandonWanted = true
      let rests := l.state = .awaitJob ∨ l.state = .queued ∨ l.state = .waiting
      (barred → exec (.layControlHold tag lay) s = .next (u.answered tag r .badState [])) ∧
      (¬barred → l.state = .held ∨ l.holdWanted = true → exec (.layControlHold tag lay) s = .next
        ((u.worked []).answered tag r .ok [])) ∧
      (¬barred → rests → l.holdWanted = false → exec (.layControlHold tag lay) s = .next
        (((u.setLay n (some { l with
          state := .held, heldFrom := some l.state, cause := some .requested, holds := bump16 l.holds, holdWanted := false })).worked
            []).answered tag r .ok [])) ∧
      (¬barred → ¬rests → l.state ≠ .held → l.holdWanted = false → exec (.layControlHold tag lay) s = .next
        (((u.setLay n (some { l with holdWanted := true })).worked []).answered tag r .ok []))

/-- LAY_CONTROL RELEASE: only a HELD lay is released. Where the hold's cause is SIZE_LIMIT the size checks are repeated against the
parameters in force, where it is BAD_STEP with held-from QUEUED the empty-program check; where they pass, and for every other cause, the lay
leaves HELD for its held-from state, past the PAUSE after PROGRAM_PAUSE; into AWAIT_JOB it binds on a Job Map hit, else it waits again in
its place. A failed re-check raises its event again, and holds the lay again, with the cause rewritten, where the event's class is LAY; else
the lay is released. -/
def Obligations.ReleaseReturnsLay : Prop :=
  (∀ (s : State) (tag lay : Byte), s.awaitsRequest →
    let u := s.taking
    let n := lay.toNat
    let r : Request := .layControl lay 1
    let released := Host.Outcome.next (φ := Fault) (ρ := Refusal) ((u.worked [.release n]).answered tag r .ok [])
    let again := fun (kind : EventKind) (d : Nat) => Host.Outcome.next (φ := Fault) (ρ := Refusal)
      ((u.worked [.raise kind (.lay n) d, .recheckFailed n kind d]).answered tag r .ok [])
    (8 ≤ n → exec (.layControlRelease tag lay) s = .next (u.answered tag r .badArg [])) ∧
    (n < 8 → s.lay? n = none → exec (.layControlRelease tag lay) s = .next (u.answered tag r .notFound [])) ∧
    ∀ l, n < 8 → s.lay? n = some l →
      let p := s.cell.params
      let x := l.x.getD 0
      let y := l.y.getD 0
      let sized := ∃ d, l.cause = some (.event .sizeLimit d)
      let stepped := (∃ d, l.cause = some (.event .badStep d)) ∧ l.heldFrom = some .queued
      (l.state ≠ .held → exec (.layControlRelease tag lay) s = .next (u.answered tag r .badState [])) ∧
      (l.state = .held → ¬sized → (¬stepped ∨ l.program = none) → exec (.layControlRelease tag lay) s = released) ∧
      (l.state = .held → sized →
        (x ≤ p.gaugeMax → y ≤ p.tableWidth → l.height ≤ p.clampMaxH → exec (.layControlRelease tag lay) s = released) ∧
        (p.gaugeMax < x → exec (.layControlRelease tag lay) s = again .sizeLimit 1001) ∧
        (x ≤ p.gaugeMax → p.tableWidth < y → exec (.layControlRelease tag lay) s = again .sizeLimit 1002) ∧
        (x ≤ p.gaugeMax → y ≤ p.tableWidth → p.clampMaxH < l.height →
          exec (.layControlRelease tag lay) s = again .sizeLimit 1003)) ∧
      ∀ q, l.state = .held → stepped → l.program = some q →
        ((s.program q).isSome = true → exec (.layControlRelease tag lay) s = released) ∧
        (s.program q = none → exec (.layControlRelease tag lay) s = again .badStep q)) ∧
  (∀ (s : State) (n : Nat) (l : Lay) (st : LayState), s.lay? n = some l → l.state = .held → l.heldFrom = some st →
    let v := s.setLay n (some { l with
      state := st, cause := none, heldFrom := none
      step := match l.cause with
        | some (.event .programPause _) => l.step.map (· + 1)
        | _ => l.step })
    (st ≠ .awaitJob → perform (.release n) s = (v, [])) ∧
    (st = .awaitJob → s.job? l.job = none → perform (.release n) s = (v, [])) ∧
    (∀ e, st = .awaitJob → s.job? l.job = some e → perform (.release n) s =
      ({ v with intake := { s.intake with jobs := e :: s.intake.jobs.filter fun f => decide (f.job ≠ e.job) } }, [.bind n e]))) ∧
  ∀ (s : State) (n : Nat) (l : Lay) (kind : EventKind) (d : Nat), s.lay? n = some l → l.state = .held →
    (s.classOf kind = .lay → perform (.recheckFailed n kind d) s =
      (s.setLay n (some { l with cause := some (.event kind d), holds := bump16 l.holds }), [])) ∧
    (s.classOf kind ≠ .lay → perform (.recheckFailed n kind d) s = (s, [.release n]))

/-- LAY_CONTROL ABANDON: BAD_STATE for FINISHING, DRAINING (held from them too) and PUSHING at END; a lay with a move under way has abandon
wanted set; one at rest or HELD without a zone finishes ABANDONED; in LIFT it is MOVING, to be lowered; in JOG and BUFFER it drains, on the
TABLE in RELEASING where the clamp is down or a piece in hand, else in PUSHING; else abandon wanted is set. LIFT LOWER is posted at once in
RUNNING, STOPPING and HALTED and in the other cell states once the cell comes to one of these (log 8: R22 and R73 against R84's last
bullet); without a LIFT slot the lay is WAITING again (log 9). Once the event's work is done the first lay, in lay-number order, that stands
at a phase boundary with abandon wanted or hold wanted has its abandon taken in these ways, or else its hold, with cause REQUESTED; a lay in
CUTTING stands at one, but in PUSHING, when it has no sequencer order outstanding and no permit (log 26). For a HELD lay an abandon wanted
is taken at the end of its present or move (log 10). -/
def Obligations.AbandonIsTakenOrWanted : Prop :=
  (∀ (s : State) (tag lay : Byte), s.awaitsRequest →
    let u := s.taking
    let n := lay.toNat
    let r : Request := .layControl lay 2
    (8 ≤ n → exec (.layControlAbandon tag lay) s = .next (u.answered tag r .badArg [])) ∧
    (n < 8 → s.lay? n = none → exec (.layControlAbandon tag lay) s = .next (u.answered tag r .notFound [])) ∧
    ∀ l, n < 8 → s.lay? n = some l →
      let barred := l.eff = .finishing ∨ l.eff = .draining ∨ (l.state = .cutting ∧ l.phase = some .pushing)
      let lowering := l.eff = .moving ∧ l.zone = some .lift ∧ s.reservedFor n = false
      let atRest := l.state = .held ∨ l.state = .awaitJob ∨ l.state = .queued ∨ l.state = .waiting
      let release := s.seq.clamp ≠ .released ∨ s.seq.inHand.isSome = true
      let drains := fun (p : Option Phase) (t : Option Nat) => Host.Outcome.next (φ := Fault) (ρ := Refusal)
        (((u.setLay n (some { l with
          state := .draining, cause := none, heldFrom := none, holdWanted := false, abandonWanted := false, abandoned := true
          runs := none, phase := p, target := t })).worked []).answered tag r .ok [])
      (barred → exec (.layControlAbandon tag lay) s = .next (u.answered tag r .badState [])) ∧
      (¬barred → lowering → exec (.layControlAbandon tag lay) s = .next ((u.worked []).answered tag r .ok [])) ∧
      (¬barred → ¬lowering → (l.eff = .moving ∨ ¬atRest) → exec (.layControlAbandon tag lay) s = .next
        (((u.setLay n (some { l with abandonWanted := true })).worked []).answered tag r .ok [])) ∧
      (¬barred → l.eff ≠ .moving → atRest → l.zone = none → exec (.layControlAbandon tag lay) s = .next
        (((u.setLay n (some { l with
          state := .finishing, cause := none, heldFrom := none, holdWanted := false, abandonWanted := false, abandoned := true
          phase := none })).worked [.finishTest n]).answered tag r .ok [])) ∧
      (¬barred → l.eff ≠ .moving → atRest → l.zone = some .lift → exec (.layControlAbandon tag lay) s = .next
        (((u.setLay n (some { l with
          state := .moving, cause := none, heldFrom := none, holdWanted := false, abandonWanted := false })).worked
            []).answered tag r .ok [])) ∧
      (∀ z, ¬barred → l.eff ≠ .moving → atRest → l.zone = some z → z ≠ .lift → z ≠ .table →
        exec (.layControlAbandon tag lay) s = drains none none) ∧
      (¬barred → l.eff ≠ .moving → atRest → l.zone = some .table →
        (release → exec (.layControlAbandon tag lay) s = drains (some .releasing) l.target) ∧
        (¬release → exec (.layControlAbandon tag lay) s = drains (some .pushing) (some 0)))) ∧
  (∀ s : State,
    let boundary := fun (n : Nat) (l : Lay) => l.state = .awaitJob ∨ l.state = .queued ∨ l.state = .waiting ∨
      (l.state = .jogging ∧ s.arbitrating n = false) ∨ (l.state = .cutting ∧ (l.phase = none ∨
        (l.phase ≠ some .pushing ∧ s.sequencing n = false ∧ s.permitted n = false)))
    let wants := fun (n : Nat) => ∃ l, s.lay? n = some l ∧ (l.abandonWanted = true ∨ l.holdWanted = true) ∧ boundary n l
    let becomes := fun (n : Nat) (l : Lay) => (({ s with lays := s.lays.set n (some l) }, []) : Effect)
    ((∀ n < 8, ¬wants n) → boundaryRule s = none) ∧
    (∀ n l, n < 8 → wants n → (∀ m < n, ¬wants m) → s.lay? n = some l → l.abandonWanted = false →
      boundaryRule s = some (becomes n { l with
        state := .held, heldFrom := some l.state, cause := some .requested, holds := bump16 l.holds, holdWanted := false })) ∧
    ∀ n l, s.lay? n = some l →
      let release := s.seq.clamp ≠ .released ∨ s.seq.inHand.isSome = true
      let drains := fun (p : Option Phase) (t : Option Nat) => becomes n { l with
        state := .draining, cause := none, heldFrom := none, holdWanted := false, abandonWanted := false, abandoned := true
        runs := none, phase := p, target := t }
      let ended := l.state = .held ∧ l.abandonWanted = true ∧ l.heldFrom ≠ some .moving
      (¬ended → perform (.moveEnded n) s = (s, [])) ∧
      ∃ taken : Effect,
        (n < 8 → wants n → (∀ m < n, ¬wants m) → l.abandonWanted = true → boundaryRule s = some taken) ∧
        (ended → perform (.moveEnded n) s = taken) ∧
        (l.zone = none → taken = ((becomes n { l with
          state := .finishing, cause := none, heldFrom := none, holdWanted := false, abandonWanted := false, abandoned := true
          phase := none }).1, [.finishTest n])) ∧
        (l.zone = some .lift → taken = becomes n { l with
          state := .moving, cause := none, heldFrom := none, holdWanted := false, abandonWanted := false }) ∧
        (l.zone = some .jog ∨ l.zone = some .buffer → taken = drains none none) ∧
        (l.zone = some .table → release → taken = drains (some .releasing) l.target) ∧
        (l.zone = some .table → ¬release → taken = drains (some .pushing) (some 0))) ∧
  ∀ (s : State) (n : Nat) (l : Lay), s.zones.lift.occupant = some n → s.lay? n = some l → l.state = .moving → l.zone = some .lift →
    s.reservedFor n = false →
    let lowers := s.cell.state = .running ∨ s.cell.state = .stopping ∨ s.cell.state = .halted
    (s.arbitrating n = true → lowerRule s = none) ∧
    (s.arbitrating n = false → s.working .lift = none → lowerRule s = some (s.setLay n (some { l with state := .waiting }), [])) ∧
    ∀ k, s.arbitrating n = false → s.working .lift = some k →
      (lowers → lowerRule s = some (s, [.post k ⟨.lower, [.arbiter n]⟩])) ∧ (¬lowers → lowerRule s = none)

/-- TAKE_DELIVERY: EMPTY on an empty Delivery List, with no body and no change; else the head record is removed and returned in the reply, and
the oldest lay of the finish queue is appended and freed, without DELIVERY_READY. A FINISHING lay with no piece left is appended and freed
where the list has room and no lay waits, with DELIVERY_READY where the list was empty; else it joins the finish queue's tail with
DELIVERY_FULL; a lay that is not FINISHING, waits already or has a piece left stays as it is. A lay HELD from FINISHING is taken as one in
FINISHING (log 53). -/
def Obligations.TakeDeliveryReturnsHead : Prop :=
  (∀ (s : State) (tag : Byte), s.awaitsRequest →
    let u := s.taking
    (s.delivery.records = [] → exec (.takeDelivery tag) s = .next (u.answered tag .takeDelivery .empty [])) ∧
    (∀ d rest, s.delivery.records = d :: rest → s.delivery.finishQueue = [] → exec (.takeDelivery tag) s = .next
      ((State.worked { u with delivery := { s.delivery with records := rest } } []).answered tag .takeDelivery .ok (summaryBytes d))) ∧
    (∀ d rest n more l, s.delivery.records = d :: rest → s.delivery.finishQueue = n :: more → s.lay? n = some l →
      exec (.takeDelivery tag) s = .next
        ((State.worked { u with
          delivery := { s.delivery with records := rest ++ [l.summary n], finishQueue := more }
          lays := s.lays.set n none
          order := s.order.filter fun m => decide (m ≠ n) } []).answered tag .takeDelivery .ok (summaryBytes d)))) ∧
  ∀ (s : State) (n : Nat) (l : Lay), s.lay? n = some l →
    let ready := l.eff = .finishing ∧ n ∉ s.delivery.finishQueue ∧ ∀ p ∈ s.delivery.pieces, p.lay ≠ n
    let room := s.delivery.records.length < 16 ∧ s.delivery.finishQueue = []
    (¬ready → perform (.finishTest n) s = (s, [])) ∧
    (ready → room → perform (.finishTest n) s =
      ({ s with
        delivery := { s.delivery with records := s.delivery.records ++ [{
          job := l.job, pile := l.pile, lay := n, abandoned := l.abandoned, blocksA := l.blocksA, blocksB := l.blocksB
          waste := l.waste, strokes := l.strokes, holds := l.holds, finalStep := l.step }] }
        lays := s.lays.set n none
        order := s.order.filter fun m => decide (m ≠ n) },
        if s.delivery.records = [] then [.raise .deliveryReady (.job l.job) n] else [])) ∧
    (ready → ¬room → perform (.finishTest n) s =
      ({ s with delivery := { s.delivery with finishQueue := s.delivery.finishQueue ++ [n] } },
        [.raise .deliveryFull (.lay n) (s.delivery.finishQueue.length + 1)]))

/-! ### Inside an event -/

/-- Every event raises its kind's counter, which stays at 65,535; of another class than IGNORE it sets the flag and owes a notice where the
flag was clear and the notice bit on; no other kind's record changes. A LAY event then holds the live lay it names, deferred while that
lay's permit is in STROKE, where a deferred hold already there is kept, and withdrawing a permit that is OPEN; one whose subject is no lay,
a free record or a lay in the finish queue holds nothing. A CELL event in a halting state halts the cell: the halt cause is written, Cell
Control's timers stop, a wake is no longer wanted, the starting, waking and parking orders no longer concern Cell Control, the sequencer's
orders in flight are marked as sent before the halt (log 16); then come its effects on the gate, the lay on the TABLE (log 34) and the slots
(logs 40, 49; a STOP that several origins joined is dropped only where all are lay origins, log 15). An ORDER_TIMEOUT without a subject escalates
nothing (log 14). What waits for a condition is then taken up in the order of log 4, one rule at a time, until none applies. -/
def Obligations.EventIsTaken : Prop :=
  (∀ (s : State) (kind : EventKind) (subject : Subject) (detail : Nat), s.events.kinds.length = 32 →
    let r := s.events.kindAt kind.index
    let e := (perform (.raise kind subject detail) s).1.events
    (e.kindAt kind.index).counter = (if r.counter < 65535 then r.counter + 1 else 65535) ∧
    (e.kindAt kind.index).flag = (r.flag || decide (r.cls ≠ .ignore)) ∧
    (e.kindAt kind.index).owed =
      (if r.cls ≠ .ignore ∧ r.flag = false ∧ r.notice = true then some (subject, detail) else r.owed) ∧
    (e.kindAt kind.index).cls = r.cls ∧ (e.kindAt kind.index).notice = r.notice ∧
    (∀ i, i ≠ kind.index → e.kindAt i = s.events.kindAt i) ∧
    (r.cls = .ignore ∨ r.cls = .note ∨ r.cls = .advisory → perform (.raise kind subject detail) s = (s.record kind subject detail, [])) ∧
    (∀ n l, r.cls = .lay → subject = .lay n → s.lay? n = some l → n ∉ s.delivery.finishQueue →
      (l.state = .held → ¬(s.gate.state = .stroke ∧ s.permitted n = true) →
        perform (.raise kind subject detail) s = (s.record kind subject detail, [])) ∧
      (l.state ≠ .held → s.permitted n = false → perform (.raise kind subject detail) s =
        ((s.record kind subject detail).setLay n (some { l with
          state := .held, heldFrom := some l.state, cause := some (.event kind detail), holds := bump16 l.holds
          holdWanted := false }), [])) ∧
      (l.state ≠ .held → s.gate.state = .opened → s.permitted n = true → perform (.raise kind subject detail) s =
        (State.setLay { s.record kind subject detail with
            gate := { s.gate with state := .closed, permit := none, window := none, timer := none } } n (some { l with
          phase := some .positioning, state := .held, heldFrom := some l.state, cause := some (.event kind detail)
          holds := bump16 l.holds, holdWanted := false }), s.postTo .knife .stop (.gate n))) ∧
      (s.gate.state = .stroke → s.permitted n = true →
        e.deferred = (match s.events.deferred with
          | some d => some d
          | none => some ⟨n, kind, detail⟩) ∧
        (perform (.raise kind subject detail) s).1.lays = s.lays ∧ (perform (.raise kind subject detail) s).1.gate = s.gate ∧
        (perform (.raise kind subject detail) s).2 = [])) ∧
    (r.cls = .lay → (∀ n l, subject = .lay n → s.lay? n = some l → n ∈ s.delivery.finishQueue) →
      perform (.raise kind subject detail) s = (s.record kind subject detail, [])) ∧
    (r.cls = .cell → (kind ≠ .orderTimeout ∨ subject ≠ .none) → s.cell.state.isHalting = true →
      let detached := fun (o : Order) => ({ o with sources := o.sources.map fun
        | .cell _ => .cell false
        | c => c } : Order)
      let cutOff := fun (o : Order) => ({ o with sources := o.sources.map fun
        | .cell _ => .cell false
        | .sequence n _ => .sequence n true
        | c => c } : Order)
      let u := s.record kind subject detail
      perform (.raise kind subject detail) s =
        ({ u with
            events := { u.events with haltCause := some ⟨kind, subject, detail⟩ }
            cell := { s.cell with state := .halted, idle := none, settle := none, lockWait := none, wakeWanted := false }
            slots := s.slots.map fun x => { x with
              inFlight := x.inFlight.map fun i => { i with order := cutOff i.order }
              announced := x.announced.map fun a => { a with order := detached a.order }
              posted := x.posted.map detached
              waiting := x.waiting.map detached } },
          [.raise .cellState .none 6, .haltTable, .haltDrop, .haltStop])) ∧
    (r.cls = .cell → s.cell.state.isHalting = false → perform (.raise kind subject detail) s = (s.record kind subject detail, [])) ∧
    (kind = .orderTimeout → subject = .none → perform (.raise kind subject detail) s = (s.record kind subject detail, []))) ∧
  (∀ s : State,
    let resumes := fun (p : Phase) => match p with
      | .positioning | .clamping | .stroking => .positioning
      | .releasing | .turning | .pushing => p
    let u := match s.zones.table.occupant with
      | some n => s.updateLay n fun l => { l with phase := l.phase.map resumes }
      | none => s
    let closed := { s.gate with state := .closed, permit := none, window := none, timer := none }
    (∀ p, s.gate.state = .stroke → s.gate.permit = some p → perform .haltTable s =
      (State.takeDeferred { u with gate := closed }, [.raise .interrupted (.lay p.lay) p.step])) ∧
    (s.gate.state = .opened → perform .haltTable s = ({ u with gate := closed }, [])) ∧
    (s.gate.state = .closed ∨ s.gate.state = .lockedOut → perform .haltTable s = (u, [])) ∧
    (s.events.deferred = none → s.takeDeferred = s) ∧
    (∀ d, s.events.deferred = some d → s.takeDeferred =
      State.updateLay { s with events := { s.events with deferred := none } } d.lay (Lay.hold (.event d.kind d.detail))) ∧
    perform .haltDrop s =
      ({ s with slots := s.slots.map fun x =>
          let posted := x.posted.filter fun o => !o.isLayOrigin
          let waiting := x.waiting.filter fun o => !o.isLayOrigin
          { x with posted := posted ++ waiting.take (4 - posted.length), waiting := waiting.drop (4 - posted.length) } },
        s.slots.zipIdx.flatMap fun p =>
          ((p.1.posted ++ p.1.waiting).filter Order.isLayOrigin).flatMap fun o => endTasks p.2 none o .dropped) ∧
    perform .haltStop s =
      (s, (s.slotsWhere fun x => decide (x.state = .ready)).map fun k => .post k ⟨.stop, [.cell false]⟩)) ∧
  (∀ (s t : State) (work : List Task) (r : State → Option Effect) (before later : List (State → Option Effect)),
    settleRules = before ++ r :: later → (∀ q ∈ before, q s = none) → r s = some (t, work) →
    perform .settle s = (t, work ++ [.settle])) ∧
  ∀ (s : State) (work : List Task), (s.worked work).agenda = [] → ∀ r ∈ settleRules, r (s.worked work) = none

/-- The destination of a piece is fixed at its handover from its class and its lay's delivery mode, and the toggle flips only for a BLOCK of
an ALTERNATE lay; the piece joins the tail of the list, UNPOSTED; nothing else changes. In RUNNING and STOPPING DELIVER is posted for the
oldest UNPOSTED piece whose lay is live and not HELD and that no STOPPING left behind (log 19), once it can be. Its DONE takes the piece off
the list, counts it and lets the lay finish; any other end leaves it UNPOSTED with its destination, late in STOPPING, and a refusal other
than ABORTED raises ORDER_REFUSED for the lay. That a DELIVER names its piece by a number the piece took at its handover is the model's
bookkeeping (log 47): two pieces of one lay may be with two stations at once, where the OUT slot moved while one was in flight. -/
def Obligations.PieceDestinationAtHandover : Prop :=
  (∀ (s : State) (n depth width : Nat) (cls : PieceClass) (kind : PieceKind) (l : Lay) (mode : DeliveryMode),
    s.lay? n = some l → l.mode = some mode →
    ∃ (d : Destination) (flips : Bool),
      let piece : Piece := ⟨n, cls, depth, width, kind, d, false, false, s.delivery.nextPiece⟩
      s.handOver n cls depth width kind = { s with delivery := { s.delivery with
        toggleB := if flips then !s.delivery.toggleB else s.delivery.toggleB
        pieces := s.delivery.pieces ++ [piece]
        nextPiece := s.delivery.nextPiece + 1 } } ∧
      (flips = true ↔ cls = .block ∧ mode = .alternate) ∧
      (cls = .waste → d = .chute) ∧
      (cls = .block → mode = .beltA → d = .beltA) ∧
      (cls = .block → mode = .beltB → d = .beltB) ∧
      (cls = .block → mode = .alternate → d = if s.delivery.toggleB then .beltB else .beltA)) ∧
  (∀ s : State,
    let active := s.cell.state = .running ∨ s.cell.state = .stopping
    let due := fun (p : Piece) => p.posted = false ∧ p.late = false ∧ ∃ l, s.lay? p.lay = some l ∧ l.state ≠ .held
    (∀ older p younger k, active → s.delivery.pieces = older ++ p :: younger → (∀ q ∈ older, ¬due q) → due p → s.working .out = some k →
      deliverRule s = some ({ s with delivery := { s.delivery with pieces := older ++ { p with posted := true } :: younger } },
        [.post k ⟨.deliver p.destination, [.delivery p.lay p.number]⟩])) ∧
    (¬active ∨ (∀ q ∈ s.delivery.pieces, ¬due q) ∨ s.working .out = none → deliverRule s = none)) ∧
  ∀ (s : State) (n k : Nat) (tag : Option Nat) (d : Destination) (l : Lay) (p : Piece) (older younger : List Piece),
    s.lay? n = some l → s.delivery.pieces = older ++ p :: younger → p.lay = n → (∀ q ∈ older, q.number ≠ p.number) →
    let ends := fun (how : End) => perform (.endFor k tag (.deliver d) (.delivery n p.number) how) s
    let back := { s with delivery := { s.delivery with
      pieces := older ++ { p with posted := false, late := decide (s.cell.state = .stopping) } :: younger } }
    (∀ value, ends (.done value) =
      (State.setLay { s with delivery := { s.delivery with pieces := older ++ younger } } n (some (match p.destination with
        | .beltA => { l with blocksA := bump16 l.blocksA }
        | .beltB => { l with blocksB := bump16 l.blocksB }
        | .chute => { l with waste := bump16 l.waste })), [.finishTest n])) ∧
    (∀ reason, reason ≠ .aborted → ends (.refused reason) = (back, [.raise .orderRefused (.lay n) (reasonIndex reason)])) ∧
    ends (.refused .aborted) = (back, []) ∧ ends .timedOut = (back, []) ∧ ends .dropped = (back, []) ∧ ends .lost = (back, [])

/-- The steps at a step start. With runs absent: REPEAT, FIT, PRESS, NOTE, PAUSE, END and INVERT; TURN by the size check; TRIM, STRIP and
CUT_AT by the width or position check and then the gauge check. TRIM and STRIP with runs above 0 are executed as with runs absent; with runs
0 a step other than END is passed over; and a count that meets END or a step that is not repeatable is discarded with REPEAT_IGNORED, after
which, in the same event, the step is executed as with runs absent where the lay still stands at its step start (log 35). Where the program
slot is empty BAD_STEP is raised with the program number, and the lay that it did not hold is abandoned and drains on the TABLE (log 33). -/
def Obligations.StepEvaluation : Prop :=
  (∀ (s : State) (n i x y : Nat) (l : Lay), s.lay? n = some l → l.step = some i → l.x = some x → l.y = some y →
    let p := s.cell.params
    let passes := fun (g : Nat) => 1 ≤ g ∧ p.gaugeMin ≤ g ∧ g ≤ p.gaugeMax
    let cuts := fun (g : Nat) => (s.setLay n (some { l with phase := some .positioning, target := some g }), ([] : List Task))
    let turns := (s.setLay n (some { l with phase := some .turning, target := none }), ([] : List Task))
    let fails := fun (kind : EventKind) =>
      (s.setLay n (some { l with phase := none, target := none }), ([.raise kind (.lay n) i, .giveUp n] : List Task))
    (l.runs = none →
      (∀ c, evalStep n l (.repeatNext c) s = (s.setLay n (some { l with step := some (i + 1), runs := some (c + 1) }), [])) ∧
      (∀ level, evalStep n l (.press level) s = (s.setLay n (some { l with step := some (i + 1), press := some level }), [])) ∧
      (∀ k, evalStep n l (.note k) s = (s.setLay n (some { l with step := some (i + 1) }), [.raise .programMark (.lay n) k])) ∧
      evalStep n l .pause s = (s, [.raise .programPause (.lay n) i]) ∧
      evalStep n l .invert s = turns ∧
      (∀ q, (q = 1 ∨ q = 2 ∨ q = 3) →
        (q = 2 ∨ (x ≤ p.tableWidth ∧ y ≤ p.gaugeMax) → evalStep n l (.turn q) s = turns) ∧
        (q ≠ 2 → (p.tableWidth < x ∨ p.gaugeMax < y) → evalStep n l (.turn q) s = fails .sizeLimit)) ∧
      (∀ c, evalStep n l (.endProgram c) s = (s.setLay n (some { l with phase := some .pushing, target := some 0 }), [])) ∧
      (∀ pitch q r, x = q * pitch + r → r < pitch →
        let count := if q = 0 then 0 else if r = 0 then q - 1 else q
        evalStep n l (.fit pitch) s = (s.setLay n (some { l with
          step := some (i + 1), runs := some (if 256 < count then 256 else count), zero := decide (q ≠ 0 ∧ r = 0)
          short := decide (q = 0), fitq := some q, fitr := some r }),
          if 256 < count then [.raise .fitCapped (.lay n) i] else [])) ∧
      (∀ g c,
        (x ≤ g → evalStep n l (.cutAt g c) s = (s.setLay n (some { l with step := some (i + 1) }), [.raise .nullCut (.lay n) i])) ∧
        (g < x → ¬passes g → evalStep n l (.cutAt g c) s = fails .gaugeLimit) ∧
        (g < x → passes g → evalStep n l (.cutAt g c) s = cuts g))) ∧
    (l.runs ≠ some 0 → ∀ w st, (st = .trim w ∨ st = .strip w) →
      (x ≤ w → evalStep n l st s = fails .shortCut) ∧
      (w < x → ¬passes (x - w) → evalStep n l st s = fails .gaugeLimit) ∧
      (w < x → passes (x - w) → evalStep n l st s = cuts (x - w)))) ∧
  (∀ (s : State) (n i : Nat) (l : Lay) (st : Step), s.lay? n = some l → l.step = some i →
    (l.runs = some 0 → st.isEnd = false →
      evalStep n l st s = (s.setLay n (some { l with step := some (i + 1), runs := none }), [])) ∧
    (∀ v, l.runs = some v → (v = 0 → st.isEnd = true) → (v ≠ 0 → st.repeatable = false) →
      evalStep n l st s = (s.setLay n (some { l with runs := none }), [.raise .repeatIgnored (.lay n) v, .execUnheld n])) ∧
    (s.stepOf l = some st → l.runs = none → l.state = .cutting → l.phase = none → perform (.execUnheld n) s = evalStep n l st s) ∧
    (l.state ≠ .cutting ∨ l.phase ≠ none → perform (.execUnheld n) s = (s, []))) ∧
  ∀ (s : State) (n i : Nat) (l : Lay), s.lay? n = some l → l.step = some i →
    (l.state ≠ .held → perform (.giveUp n) s =
      (s.setLay n (some { l with phase := none, target := none, step := some (i + 1), runs := none }), [])) ∧
    (l.state = .held → perform (.giveUp n) s = (s, [])) ∧
    (s.zones.table.occupant = some n →
      (∀ st, l.state = .cutting → l.phase = none → s.cell.state = .running → s.stepOf l = some st →
        stepRule s = some (evalStep n l st s)) ∧
      (∀ q, l.state = .cutting → l.phase = none → s.cell.state = .running → l.program = some q → s.program q = none →
        stepRule s = some (s, [.raise .badStep (.lay n) q, .drainUnheld n])) ∧
      (l.state ≠ .cutting ∨ l.phase ≠ none ∨ s.cell.state ≠ .running → stepRule s = none)) ∧
    (l.state = .held → perform (.drainUnheld n) s = (s, [])) ∧
    (l.state ≠ .held → l.zone = some .table →
      let release := s.seq.clamp ≠ .released ∨ s.seq.inHand.isSome = true
      let drains := fun (p : Phase) (t : Option Nat) => ((s.setLay n (some { l with
        state := .draining, cause := none, heldFrom := none, holdWanted := false, abandonWanted := false, abandoned := true
        runs := none, phase := some p, target := t }), []) : Effect)
      (release → perform (.drainUnheld n) s = drains .releasing l.target) ∧
      (¬release → perform (.drainUnheld n) s = drains .pushing (some 0)))

/-- The ends of STROKE. The DONE of the permit's STROKE in STROKE: the strokes total and the wear count rise, the elapsed time is the last
stroke and the longest where it is longer, the gate is CLOSED without a permit; the cut commits: X becomes the target, the piece in hand has
depth X less g, width Y and the step's class, strokes rises, runs and step change as R36 gives, the lay is in RELEASING, which goes on in
STOPPING too (log 18), and a deferred hold holds it there. Any other end in STROKE fails the stroke, with STROKE_TIMEOUT's detail 1 refused,
2 timed out, 3 lost. In OPEN every end but DONE closes the gate, and a refusal other than ABORTED raises ORDER_REFUSED. Every other DONE, as in OPEN, CLOSED and LOCKED_OUT and of a
STROKE that is not the permit's (log 46), is an unbidden stroke with the tag plus 256; any other end of such a STROKE, and every end of the
gate's STOP, changes nothing. A failed or unbidden stroke locks the gate out, puts the permit's lay back in POSITIONING with a deferred hold
taken and INTERRUPTED raised, and posts ENABLE(off) to the KNIFE slot, again where it was LOCKED_OUT already (log 37); the KNIFE slot is the
working one (log 25). -/
def Obligations.StrokeDoneCommitsCut : Prop :=
  (∀ (s : State) (k n i x y g ms limit : Nat) (value : BitVec 32) (p : Permit) (l : Lay) (st : Step),
    s.gate.state = .stroke → s.gate.permit = some p → p.lay = n → s.working .knife = some k → s.lay? n = some l →
    l.state = .cutting → l.step = some i → l.x = some x → l.y = some y → l.target = some g → s.stepOf l = some st →
    (∀ d, s.events.deferred = some d → d.lay = n) → s.gate.timer = some ⟨ms, limit⟩ →
    let u := (perform (.endFor k (some p.tag) .stroke (.gate n) (.done value)) s).1
    let cut := { l with
      x := some g
      strokes := bump16 l.strokes
      phase := some .releasing
      runs := match l.runs with
        | some (r + 2) => some (r + 1)
        | _ => none
      step := match l.runs with
        | some (_ + 2) => some i
        | _ => some (i + 1) }
    u.gate.state = .closed ∧ u.gate.permit = none ∧ u.gate.timer = none ∧ u.gate.permits = s.gate.permits ∧
    u.gate.strokes = bump32 s.gate.strokes ∧ u.gate.wear = bump32 s.gate.wear ∧ u.gate.lastStroke = some (min 65535 ms) ∧
    u.gate.longestStroke = some (max (min 65535 ms) (s.gate.longestStroke.getD 0)) ∧
    u.seq = { s.seq with begun := some .releasing, inHand := some { lay := n, depth := x - g, width := y, cls := match st with
      | .strip _ => .block
      | .cutAt _ c => c
      | _ => .waste } } ∧
    u.events = { s.events with deferred := none } ∧
    u.lays = s.lays.set n (some (match s.events.deferred with
      | none => cut
      | some d => { cut with
        state := .held, heldFrom := some .cutting, cause := some (.event d.kind d.detail), holds := bump16 l.holds
        holdWanted := false })) ∧
    (perform (.endFor k (some p.tag) .stroke (.gate n) (.done value)) s).2 =
      (if s.cell.params.knifeWearLimit ≠ 0 ∧ s.cell.params.knifeWearLimit ≤ bump32 s.gate.wear ∧ s.gate.wearReported = false
        then [.raise .wear s.knifeSubject 0] else [])) ∧
  ∀ (s : State) (k n : Nat),
    let closed := { s.gate with state := .closed, permit := none, window := none, timer := none }
    let lockedOut := { s with gate := { s.gate with state := .lockedOut, permit := none, window := none, timer := none } }
    let interrupted := fun (p : Permit) => (lockedOut.updateLay p.lay fun l => { l with phase := some .positioning }).takeDeferred
    let ends := fun (tag : Nat) (how : End) => perform (.endFor k (some tag) .stroke (.gate n) how) s
    let unbidden := fun (tag : Nat) => perform (.unbidden (tag + 256)) s
    (∀ p, s.gate.state = .opened → s.gate.permit = some p → s.working .knife = some k →
      (∀ reason, reason ≠ .aborted → ends p.tag (.refused reason) =
        ({ s with gate := closed }, [.raise .orderRefused (.lay n) (reasonIndex reason)])) ∧
      (∀ how, how = .refused .aborted ∨ how = .timedOut ∨ how = .dropped ∨ how = .lost → ends p.tag how = ({ s with gate := closed }, [])) ∧
      ∀ value, ends p.tag (.done value) = unbidden p.tag) ∧
    (∀ p, s.gate.state = .stroke → s.gate.permit = some p → s.working .knife = some k →
      let fails := fun (detail : Nat) => ((interrupted p, [.raise .interrupted (.lay p.lay) p.step,
        .raise .strokeTimeout s.knifeSubject detail, .lockOutOrder]) : Effect)
      (∀ reason, ends p.tag (.refused reason) = fails 1) ∧ ends p.tag .timedOut = fails 2 ∧ ends p.tag .dropped = fails 3 ∧
      ends p.tag .lost = fails 3) ∧
    (∀ tag, s.gate.state = .closed ∨ s.gate.state = .lockedOut ∨ s.working .knife ≠ some k ∨
        (∀ p, s.gate.permit = some p → p.tag ≠ tag) →
      (∀ value, ends tag (.done value) = unbidden tag) ∧ ∀ how, how.isDone = false → ends tag how = (s, [])) ∧
    (∀ how, how.isDone = false → perform (.endFor k none .stroke (.gate n) how) s = (s, [])) ∧
    (∀ tag how, perform (.endFor k tag .stop (.gate n) how) s = (s, [])) ∧
    (∀ detail,
      (s.gate.permit = none → perform (.unbidden detail) s =
        (lockedOut, [.raise .unbiddenStroke s.knifeSubject detail, .lockOutOrder])) ∧
      ∀ p, s.gate.permit = some p → perform (.unbidden detail) s =
        (interrupted p, [.raise .interrupted (.lay p.lay) p.step, .raise .unbiddenStroke s.knifeSubject detail, .lockOutOrder])) ∧
    (s.working .knife = some k → perform .lockOutOrder s = (s, [.post k ⟨.enable false, [.cell false]⟩])) ∧
    (s.working .knife = none → perform .lockOutOrder s = (s, []))

/-- A permit is due to the lay on the TABLE in STROKING with the gate CLOSED exactly where every condition of R97 holds; issuing it opens the
gate, fills the permit record with the STROKE's tag, raises the permits total, starts the window at PERMIT_WINDOW and sends STROKE at once. -/
def Obligations.PermitIssuedWhenAllHold : Prop :=
  (∀ (s : State) (n : Nat), s.duePermit = some n ↔
    s.gate.state = .closed ∧ s.zones.table.occupant = some n ∧
      ∃ l, s.lay? n = some l ∧ l.phase = some .stroking ∧ l.state = .cutting ∧ l.holdWanted = false ∧ l.abandonWanted = false ∧
        s.clampedFor n = true ∧ (∃ gd, s.guardState = some gd ∧ gd.isOpen = false ∧ gd.locked = true) ∧
        (∀ x, s.workingSlot .xfer = some x → x.inFlight = none ∧ x.posted = []) ∧
        s.seq.gauge = .known (l.target.getD 0) true ∧
        (∃ x, s.workingSlot .knife = some x ∧ x.state = .ready ∧ x.inFlight = none ∧ x.posted = [] ∧ x.position = some .top) ∧
        (∀ x, s.workingSlot .out = some x → ∀ o ∈ x.orders, ∀ d, o.kind ≠ .deliver d) ∧ s.cell.state = .running) ∧
  ∀ (s : State) (n k : Nat), s.working .knife = some k → k < s.slots.length →
    ∃ u, issuePermit n s = (u, []) ∧
      u.gate = { s.gate with
        state := .opened, permit := some ⟨n, s.stepDetail n, (s.slot k).nextTag⟩, permits := bump32 s.gate.permits
        window := some s.cell.params.permitWindow, timer := none } ∧
      (u.slot k).inFlight = some ⟨(s.slot k).nextTag, ⟨.stroke, [.gate n]⟩, (s.slot k).timeoutOf⟩ ∧
      (u.slot k).nextTag = ((s.slot k).nextTag + 1) % 16 ∧ (u.slot k).lastStrokeTag = some (s.slot k).nextTag ∧
      (∀ j, j ≠ k → u.slot j = s.slot j) ∧ u.lays = s.lays ∧ u.zones = s.zones ∧ u.cell = s.cell ∧ u.seq = s.seq

/-- An order to a slot: without the capability it needs it is done at once with value 0; else it joins the tail of a posted queue of fewer
than 4. At a full one an order of a lay origin waits; an order of CELL makes the youngest order drop that is no STOP and not of CELL, or
waits where there is none (log 38); a DIRECT order is never posted there (R177). A STOP joins one that is announced, in flight or at the
head of the posted queue; else, with an order in flight in READY or FAULTED, it is announced and its frame handed over at once; else it goes
to the head, where a fifth posted order makes the youngest that is no STOP drop, at a halt too (log 50). A slot with nothing in flight sends: in READY the lamp
value pending before its oldest posted order, but STOP and STROKE before it; in FAULTED the lamp value; in PROBING IDENT (log 12). The order
takes the next tag, which rises by one from 15 back to 0, its timer starts, its frame is handed to the S-port, and the waiting orders fill
the posted queue up; a lamp value is completed at once where the station has no LAMP. The slots send in slot-number order (log 4). A frame
that waits is withdrawn by its slot and tag. An order's end sets the drive flag by ENABLE and the lamp state by a LAMP of another origin
than LAMP, where it is DONE, makes the clamp's or the gauge's record UNKNOWN where it is not (log 32), and is handed to each of its
origins (log 45). An origin other than DIRECT that stands in a STOP already is not added to it again (log 51).
In AUTO a slot wants ON in READY with an order of another origin than LAMP, OFF in READY without, BLINK in FAULTED and ABSENT; a change of
that value makes it the lamp pending value, or none where the lamp is in that state (log 24). -/
def Obligations.OrderIsPostedAndSent : Prop :=
  (∀ (s : State) (k : Nat) (o : Order),
    let x := s.slot k
    let becomes := fun (y : Slot) => ((s.setSlot k y, []) : Effect)
    let drops := fun (y : Slot) (d : Order) => ((s.setSlot k y, endTasks k none d .dropped) : Effect)
    let mayGo := fun (d : Order) => d.kind ≠ .stop ∧ ∀ c ∈ d.sources, c ≠ .cell true ∧ c ≠ .cell false
    (x.completesLocally o.kind = true → perform (.post k o) s = (s, endTasks k none o (.done 0))) ∧
    (x.completesLocally o.kind = false → o.kind ≠ .stop → x.posted.length < 4 →
      perform (.post k o) s = becomes { x with posted := x.posted ++ [o] }) ∧
    (x.completesLocally o.kind = false → o.kind ≠ .stop → 4 ≤ x.posted.length →
      ((∀ c ∈ o.sources, c.lay?.isSome = true) → perform (.post k o) s = becomes { x with waiting := x.waiting ++ [o] }) ∧
      (∀ awaited, o.sources = [.cell awaited] →
        ((∀ q ∈ x.posted, ¬mayGo q) → perform (.post k o) s = becomes { x with waiting := x.waiting ++ [o] }) ∧
        ∀ older d younger, x.posted = older ++ d :: younger → mayGo d → (∀ q ∈ younger, ¬mayGo q) →
          perform (.post k o) s = drops { x with posted := older ++ younger ++ [o] } d) ∧
      (∀ answerTag, o.sources = [.direct answerTag] → perform (.post k o) s = (s, []))) ∧
    (o.kind = .stop →
      let joined := fun (old : Order) => ({ old with sources := old.sources ++ o.sources.filter fun c => match c with
        | .direct _ => true
        | _ => decide (c ∉ old.sources) } : Order)
      let notHead := ∀ h rest, x.posted = h :: rest → h.kind ≠ .stop
      (∀ a, x.announced = some a → perform (.post k o) s = becomes { x with announced := some { a with order := joined a.order } }) ∧
      (∀ i, x.announced = none → x.inFlight = some i → i.order.kind = .stop →
        perform (.post k o) s = becomes { x with inFlight := some { i with order := joined i.order } }) ∧
      (x.announced = none → (∀ i, x.inFlight = some i → i.order.kind ≠ .stop) →
        (∀ h rest, x.posted = h :: rest → h.kind = .stop → perform (.post k o) s = becomes { x with posted := joined h :: rest }) ∧
        (notHead → x.inFlight.isSome = true → x.state = .ready ∨ x.state = .faulted → perform (.post k o) s =
          ((s.setSlot k { x with announced := some ⟨x.nextTag, o⟩, nextTag := (x.nextTag + 1) % 16 }).handFrame
            { slot := k, node := (x.config.map SlotConfig.node).getD 0, tag := x.nextTag, kind := .stop }, [])) ∧
        (notHead → x.inFlight = none ∨ (x.state ≠ .ready ∧ x.state ≠ .faulted) →
          (x.posted.length < 4 → perform (.post k o) s = becomes { x with posted := o :: x.posted }) ∧
          ∀ older d younger, 4 ≤ x.posted.length → x.posted = older ++ d :: younger → d.kind ≠ .stop →
            (∀ q ∈ younger, q.kind = .stop) → perform (.post k o) s = drops { x with posted := o :: older ++ younger } d)))) ∧
  (∀ (s : State) (k : Nat), k < s.slots.length →
    let x := s.slot k
    let timeout := (x.config.map SlotConfig.timeout).getD 0
    let sends := fun (y : Slot) (o : Order) (ms : Nat) => some ((s.setSlot k { y with
        inFlight := some ⟨x.nextTag, o, ms⟩
        nextTag := (x.nextTag + 1) % 16
        lastStrokeTag := if o.kind = .stroke then some x.nextTag else x.lastStrokeTag }).handFrame
      { slot := k, node := (x.config.map SlotConfig.node).getD 0, tag := x.nextTag, kind := o.kind })
    let sendsLamp := fun (v : LampState) =>
      let y := { x with lampPending := none, lamp := v }
      if x.caps.any Caps.lamp = true then sends y ⟨.lamp v, [.lamp]⟩ timeout else some (s.setSlot k y)
    (x.inFlight.isSome = true → s.slotSend k = none) ∧
    (x.inFlight = none →
      (x.state = .absent ∨ x.state = .unused → s.slotSend k = none) ∧
      (x.state = .probing → s.slotSend k = sends x ⟨.ident, [.cell false]⟩ s.cell.params.probeTimeout) ∧
      (x.state = .faulted → x.lampPending = none → s.slotSend k = none) ∧
      (∀ v, x.state = .faulted → x.lampPending = some v → s.slotSend k = sendsLamp v) ∧
      (x.state = .ready → x.posted = [] → x.lampPending = none → s.slotSend k = none) ∧
      (∀ v, x.state = .ready → x.lampPending = some v →
        (∀ o rest, x.posted = o :: rest → o.kind ≠ .stop ∧ o.kind ≠ .stroke) → s.slotSend k = sendsLamp v) ∧
      ∀ o rest, x.state = .ready → x.posted = o :: rest → x.lampPending = none ∨ o.kind = .stop ∨ o.kind = .stroke →
        s.slotSend k = sends { x with
          posted := rest ++ x.waiting.take (4 - rest.length), waiting := x.waiting.drop (4 - rest.length) } o timeout)) ∧
  (∀ s : State,
    (∀ k u, k < 12 → s.slotSend k = some u → (∀ j < k, s.slotSend j = none) → sendRule s = some (u, [])) ∧
    ((∀ k < 12, s.slotSend k = none) → sendRule s = none)) ∧
  (∀ (s : State) (f : OrderFrame),
    (s.link.ringUp = false → s.handFrame f = s) ∧
    (s.link.ringUp = true → s.link.leaving = none → s.handFrame f = { s with link := { s.link with leaving := some f } }) ∧
    (s.link.ringUp = true → s.link.leaving.isSome = true →
      s.handFrame f = { s with link := { s.link with output := s.link.output ++ [f] } })) ∧
  (∀ (s : State) (k : Nat) (tags : List Nat), ∃ left,
    s.withdraw k tags = { s with link := { s.link with output := left } } ∧
    left.Sublist s.link.output ∧ ∀ f, f ∈ left ↔ f ∈ s.link.output ∧ ¬(f.slot = k ∧ f.tag ∈ tags)) ∧
  (∀ (s : State) (k : Nat) (tag : Option Nat) (o : Order) (how : End),
    let x := s.slot k
    let told := o.sources.map fun src => Task.endFor k tag o.kind src how
    let sequenced := ∃ n halted, Source.sequence n halted ∈ o.sources
    let clamps := (∃ level, o.kind = .clamp level) ∨ o.kind = .release
    let gauges := (∃ q, o.kind = .move q) ∨ o.kind = .pushOut
    (∀ on, how.isDone = true → o.kind = .enable on →
      perform (.ended k tag o how) s = (s.setSlot k { x with drive := on }, told)) ∧
    (∀ v, how.isDone = true → o.kind = .lamp v → o.sources ≠ [.lamp] →
      perform (.ended k tag o how) s = (s.setSlot k { x with lamp := v }, told)) ∧
    (k < s.slots.length → how.isDone = true → (∀ on, o.kind ≠ .enable on) → (∀ v, o.kind = .lamp v → o.sources = [.lamp]) →
      perform (.ended k tag o how) s = (s, told)) ∧
    (how.isDone = false → clamps → sequenced ∨ s.working .clamp = some k →
      perform (.ended k tag o how) s = ({ s with seq := { s.seq with clamp := .unknown } }, told)) ∧
    (how.isDone = false → gauges → sequenced ∨ s.working .gauge = some k →
      perform (.ended k tag o how) s = ({ s with seq := { s.seq with gauge := .unknown } }, told)) ∧
    (how.isDone = false → ¬(clamps ∧ (sequenced ∨ s.working .clamp = some k)) → ¬(gauges ∧ (sequenced ∨ s.working .gauge = some k)) →
      perform (.ended k tag o how) s = (s, told)) ∧
    perform (.endFor k tag o.kind .lamp how) s = (s, []) ∧ perform (.endFor k tag o.kind (.cell false) how) s = (s, [])) ∧
  ∀ s : State,
    let auto := fun (x : Slot) => ∃ c, x.config = some c ∧ c.lamp = .auto
    let wants := fun (x : Slot) => match x.state with
      | .ready => if ∃ o ∈ x.orders, o.sources ≠ [.lamp] then LampState.on else .off
      | .faulted | .absent => .blink
      | .probing | .unused => x.wanted
    (∀ k, k < s.slots.length → auto (s.slot k) → (s.slot k).wanted ≠ wants (s.slot k) →
      (∀ j < k, auto (s.slot j) → (s.slot j).wanted = wants (s.slot j)) →
      lampRule s = some (s.setSlot k { s.slot k with
        wanted := wants (s.slot k)
        lampPending := if wants (s.slot k) = (s.slot k).lamp then none else some (wants (s.slot k)) }, [])) ∧
    ((∀ k < s.slots.length, auto (s.slot k) → (s.slot k).wanted = wants (s.slot k)) → lampRule s = none)

/-- The Transfer Arbiter's orders, posted and ended. The head unpresented lay is presented in RUNNING from QUEUED where LIFT is free and its
slot READY. A free mover takes the standing request nearest the TABLE: the destination is reserved, the lay MOVING unless it drains,
MOVE_LAY posted; where a permit is due as well either may be first (log 5). A lay JOGGING with no jog outstanding is jogged in RUNNING, or
passed over where its jog time is 0 or no JOG slot is configured (log 36). Each end of a present, a lower, a move and a jog moves the lay,
or the held-from of a HELD lay, and frees the zones: DONE; a refusal, which raises ORDER_REFUSED; a timeout, whose event the slot raises;
REFUSED ABORTED, dropped or lost, which for a move alone raises INTERRUPTED. A draining lay stays DRAINING, in PUSHING on the TABLE. -/
def Obligations.ArbiterOrderEndsMoveLay : Prop :=
  (∀ (s : State) (n k : Nat) (tag : Option Nat) (l : Lay), s.lay? n = some l →
    let goesTo := fun (m : Lay) (st : LayState) => if m.state = .held then { m with heldFrom := some st } else { m with state := st }
    let drains := l.eff = .draining
    let ends := fun (o : OrderKind) (how : End) => perform (.endFor k tag o (.arbiter n) how) s
    let lay := fun (m : Lay) => s.lays.set n (some m)
    let freed := fun (z : ZoneId) => s.zones.set z { s.zones.get z with reservation := none }
    let quiet := fun (how : End) => how = .refused .aborted ∨ how = .dropped ∨ how = .lost
    let refusal := fun (reason : Reason) => ([.raise .orderRefused (.lay n) (reasonIndex reason)] : List Task)
    (∀ h,
      let back := { s with zones := freed .lift, lays := lay (goesTo l .queued) }
      (∀ value, ends (.present h) (.done value) =
        ({ s with zones := { s.zones with lift := ⟨some n, none⟩ }, lays := lay (goesTo { l with zone := some .lift } .waiting) }, [])) ∧
      (∀ reason, reason ≠ .aborted → ends (.present h) (.refused reason) = (back, refusal reason)) ∧
      ∀ how, how = .timedOut ∨ quiet how → ends (.present h) how = (back, [])) ∧
    (∀ value, ends .lower (.done value) =
      ({ s with
        zones := { s.zones with lift := { s.zones.lift with occupant := none } }
        lays := lay { l with
          zone := none, state := .finishing, cause := none, heldFrom := none, holdWanted := false, abandonWanted := false
          abandoned := true, phase := none } }, [.finishTest n])) ∧
    (∀ reason, reason ≠ .aborted →
      ends .lower (.refused reason) = ({ s with lays := lay (goesTo l .waiting) }, refusal reason)) ∧
    (∀ how, how = .timedOut ∨ quiet how → ends .lower how = ({ s with lays := lay (goesTo l .waiting) }, [])) ∧
    (∀ a b, (a = .lift ∧ b = .jog) ∨ (a = .jog ∧ b = .buffer) ∨ (a = .buffer ∧ b = .table) →
      let back := { s with zones := freed b, lays := lay (if drains then l else goesTo l .waiting) }
      let m := { l with zone := some b }
      (∀ value, ends (.moveLay a b) (.done value) =
        ({ s with
          zones := (s.zones.set a { s.zones.get a with occupant := none }).set b ⟨some n, none⟩
          lays := lay (if b = .table then (if drains then { m with phase := some .pushing, target := some 0 }
              else { goesTo m .cutting with phase := none, target := none })
            else if drains then m else goesTo m (if b = .jog then .jogging else .waiting)) }, [])) ∧
      (∀ reason, reason ≠ .aborted → ends (.moveLay a b) (.refused reason) = (back, refusal reason)) ∧
      ends (.moveLay a b) .timedOut = (back, []) ∧
      ∀ how, quiet how → ends (.moveLay a b) how = (back, [.raise .interrupted (.lay n)
        (if b = .jog then 65 else if b = .buffer then 66 else 67)])) ∧
    (∀ ms,
      (∀ value, ends (.jog ms) (.done value) = (if l.eff = .jogging then { s with lays := lay (goesTo l .waiting) } else s, [])) ∧
      (∀ reason, reason ≠ .aborted → ends (.jog ms) (.refused reason) = (s, refusal reason)) ∧
      ∀ how, how = .timedOut ∨ quiet how → ends (.jog ms) how = (s, []))) ∧
  (∀ s : State,
    let unpresented := fun (n : Nat) =>
      ∃ l, s.lay? n = some l ∧ l.zone = none ∧ (l.eff = .awaitJob ∨ l.eff = .queued ∨ l.eff = .moving)
    (∀ n l older younger, s.order = older ++ n :: younger → (∀ m ∈ older, ¬unpresented m) → unpresented n → s.lay? n = some l →
      let due := fun (k : Nat) => s.cell.state = .running ∧ s.zones.lift = ⟨none, none⟩ ∧ l.state = .queued ∧ l.holdWanted = false ∧
        s.working .lift = some k ∧ (s.slot k).state = .ready
      (∀ k, due k → presentRule s = some
        ({ s with
          zones := { s.zones with lift := ⟨none, some n⟩ }
          lays := s.lays.set n (some { l with state := .moving }) }, [.post k ⟨.present l.height, [.arbiter n]⟩])) ∧
      ((∀ k, ¬due k) → presentRule s = none)) ∧
    ((∀ m ∈ s.order, ¬unpresented m) → presentRule s = none)) ∧
  (∀ s : State,
    let free := (∃ x, s.workingSlot .xfer = some x ∧ x.state = .ready ∧ x.inFlight = none ∧ x.posted = []) ∧
      s.gate.state ≠ .opened ∧ s.gate.state ≠ .stroke
    let stands := fun (a b : ZoneId) (n : Nat) => s.cell.state = .running ∧ s.zones.get b = ⟨none, none⟩ ∧
      (s.zones.get a).occupant = some n ∧ ∃ l, s.lay? n = some l ∧
        (l.state = .waiting ∨ (l.state = .draining ∧ s.reservedFor n = false)) ∧ l.holdWanted = false ∧ l.abandonWanted = false
    (∀ n, s.dueMove = some ((.buffer, .table), n) ↔ free ∧ stands .buffer .table n) ∧
    (∀ n, s.dueMove = some ((.jog, .buffer), n) ↔ free ∧ stands .jog .buffer n ∧ ∀ m, ¬stands .buffer .table m) ∧
    (∀ n, s.dueMove = some ((.lift, .jog), n) ↔
      free ∧ stands .lift .jog n ∧ (∀ m, ¬stands .jog .buffer m) ∧ ∀ m, ¬stands .buffer .table m) ∧
    (∀ a b n, s.dueMove = some ((a, b), n) → s.duePermit = none → permitOrGrantRule s = some (grantMove (a, b) n s)) ∧
    (∀ p, s.dueMove = none → s.duePermit = some p → permitOrGrantRule s = some (issuePermit p s)) ∧
    (∀ a b n p, s.dueMove = some ((a, b), n) → s.duePermit = some p →
      permitOrGrantRule s = some (issuePermit p { s with choices := s.choices + 1 }) ∨
      permitOrGrantRule s = some (grantMove (a, b) n { s with choices := s.choices + 1 })) ∧
    (s.dueMove = none → s.duePermit = none → permitOrGrantRule s = none)) ∧
  (∀ (s : State) (n k : Nat) (l : Lay) (a b : ZoneId), s.lay? n = some l → s.working .xfer = some k →
    grantMove (a, b) n s = ({ s with
      zones := s.zones.set b ⟨none, some n⟩
      lays := s.lays.set n (some (if l.state = .draining then l else { l with state := .moving })) },
      [.post k ⟨.moveLay a b, [.arbiter n]⟩])) ∧
  ∀ (s : State) (n ms : Nat) (l : Lay), s.zones.jog.occupant = some n → s.lay? n = some l → l.jogTime = some ms →
    let waits := l.state = .jogging ∧ l.holdWanted = false ∧ l.abandonWanted = false ∧ s.arbitrating n = false
    (¬waits → jogRule s = none) ∧
    (waits → s.working .jog = none ∨ ms = 0 → jogRule s = some ({ s with lays := s.lays.set n (some { l with state := .waiting }) }, [])) ∧
    ∀ k, waits → s.working .jog = some k → ms ≠ 0 →
      (s.cell.state = .running → jogRule s = some (s, [.post k ⟨.jog ms, [.arbiter n]⟩])) ∧
      (s.cell.state ≠ .running → jogRule s = none)

/-- The sequencer's orders, posted and ended. For the lay on the TABLE in a phase, not HELD, with no sequencer order outstanding: POSITIONING
repeats the step's checks and posts CLAMP RELEASE where the clamp is down, else GAUGE MOVE; CLAMPING posts CLAMP; STROKING nothing; RELEASING
posts CLAMP RELEASE or ends at once; TURNING repeats the turn check and posts CLAMP RELEASE, GAUGE MOVE to GAUGE_MAX, then the turn, or gives
it up without a TURN slot; PUSHING posts CLAMP RELEASE, then PUSH_OUT; in STOPPING a cut that has not reached its stroke is wound back, and
RELEASING, TURNING and PUSHING go on where they have been begun and wait for RUNNING where not; a begun phase counts as begun no more once it
has ended, or stands in a hold with no order awaited: the model's reading of R87 and R95 (log 18). The
gauge's DONE passes POSITIONING to CLAMPING, the clamp's CLAMPING to STROKING, but not for an order in flight at a halt; the release's DONE
ends RELEASING and hands over the piece in hand; ROTATE and INVERT commit their step, or for a draining lay its dimensions, turns and face
alone (log 17); PUSH_OUT releases the TABLE and hands over the remainder, in the class END gives it, of a draining lay WASTE. A HELD lay moves
on in its held-from and resume phase; a DONE that finds the lay in another phase sets the record alone. A refusal other than
ABORTED raises ORDER_REFUSED, of a draining lay too; a turn in flight at a halt and aborted, dropped or lost raises INTERRUPTED in TURNING,
but not for a draining lay, which has left TURNING (log 17); nothing else is raised and the lay keeps its phase; and an order not done makes
the clamp's or the gauge's record UNKNOWN. That an order in flight at a halt carries a mark of it is the model's bookkeeping (log 16). -/
def Obligations.SequencerOrderEnds : Prop :=
  (∀ (s : State) (n k i : Nat) (tag : Option Nat) (l : Lay) (value : BitVec 32) (halted : Bool),
    s.lay? n = some l → (l.state = .cutting ∨ (l.state = .held ∧ l.heldFrom = some .cutting)) → l.step = some i →
    let ends := fun (o : OrderKind) (how : End) => perform (.endFor k tag o (.sequence n halted) how) s
    (∀ q, l.phase = some .positioning → ends (.move q) (.done value) =
      ({ s with
        seq := { s.seq with gauge := .known q true }
        lays := s.lays.set n (some { l with phase := if halted = true then some .positioning else some .clamping }) }, [])) ∧
    (∀ level, l.phase = some .clamping → ends (.clamp level) (.done value) =
      ({ s with
        seq := { s.seq with clamp := .clamped n level }
        lays := s.lays.set n (some { l with phase := if halted = true then some .clamping else some .stroking }) }, [])) ∧
    (l.phase ≠ some .releasing → ends .release (.done value) = ({ s with seq := { s.seq with clamp := .released } }, [])) ∧
    (l.phase = some .releasing → s.seq.inHand = none → ends .release (.done value) =
      ({ s with seq := { s.seq with clamp := .released }, lays := s.lays.set n (some { l with phase := none, target := none }) },
        [])) ∧
    (∀ p, l.phase = some .releasing → s.seq.inHand = some p → ends .release (.done value) =
      ({ s.handOver p.lay p.cls p.depth p.width .cut with
        seq := { s.seq with clamp := .released, inHand := none }
        lays := s.lays.set n (some { l with phase := none, target := none }) }, [])) ∧
    (∀ q, l.phase = some .turning → ends (.rotate q) (.done value) =
      ({ s with lays := s.lays.set n (some { l with
        turns := (l.turns + q) % 4
        x := if q % 2 = 1 then l.y else l.x
        y := if q % 2 = 1 then l.x else l.y
        phase := none, target := none, step := some (i + 1) }) }, [])) ∧
    (l.phase = some .turning → ends .invert (.done value) =
      ({ s with lays := s.lays.set n (some { l with
        face := match l.face with
          | .up => .down
          | .down => .up
        phase := none, target := none, step := some (i + 1) }) }, [])) ∧
    (∀ q, l.phase ≠ some .positioning → ends (.move q) (.done value) = ({ s with seq := { s.seq with gauge := .known q true } }, [])) ∧
    (∀ level, l.phase ≠ some .clamping →
      ends (.clamp level) (.done value) = ({ s with seq := { s.seq with clamp := .clamped n level } }, [])) ∧
    (∀ o reason, reason ≠ .aborted → ends o (.refused reason) = (s, [.raise .orderRefused (.lay n) (reasonIndex reason)])) ∧
    (∀ o, ends o .timedOut = (s, [])) ∧
    ∀ o how, how = .refused .aborted ∨ how = .dropped ∨ how = .lost → ends o how =
      (s, match o with
        | .rotate _ | .invert => if halted = true ∧ l.phase = some .turning then [.raise .interrupted (.lay n) i] else []
        | _ => [])) ∧
  (∀ (s : State) (n k : Nat) (tag : Option Nat) (l : Lay) (value : BitVec 32) (halted : Bool), s.lay? n = some l → l.eff = .draining →
    let endsAs := fun (o : OrderKind) (how : End) => perform (.endFor k tag o (.sequence n halted) how) s
    let ends := fun (o : OrderKind) => endsAs o (.done value)
    let pushes := s.lays.set n (some { l with phase := some .pushing, target := some 0 })
    (l.phase = some .releasing → s.seq.inHand = none →
      ends .release = ({ s with seq := { s.seq with clamp := .released }, lays := pushes }, [])) ∧
    (∀ p, l.phase = some .releasing → s.seq.inHand = some p → ends .release =
      ({ s.handOver p.lay p.cls p.depth p.width .cut with
        seq := { s.seq with clamp := .released, inHand := none }, lays := pushes }, [])) ∧
    (l.phase ≠ some .releasing → ends .release = ({ s with seq := { s.seq with clamp := .released } }, [])) ∧
    (∀ q, ends (.move q) = ({ s with seq := { s.seq with gauge := .known q true } }, [])) ∧
    (∀ level, ends (.clamp level) = ({ s with seq := { s.seq with clamp := .clamped n level } }, [])) ∧
    (∀ q, ends (.rotate q) = ({ s with lays := s.lays.set n (some { l with
      turns := (l.turns + q) % 4
      x := if q % 2 = 1 then l.y else l.x
      y := if q % 2 = 1 then l.x else l.y }) }, [])) ∧
    ends .invert = ({ s with lays := s.lays.set n (some { l with face := match l.face with
      | .up => .down
      | .down => .up }) }, []) ∧
    (∀ o reason, reason ≠ .aborted → endsAs o (.refused reason) = (s, [.raise .orderRefused (.lay n) (reasonIndex reason)])) ∧
    ∀ o how, how = .timedOut ∨ how = .refused .aborted ∨ how = .dropped ∨ how = .lost → endsAs o how = (s, [])) ∧
  (∀ (s : State) (n k x y : Nat) (tag : Option Nat) (l : Lay) (value : BitVec 32) (halted : Bool), s.lay? n = some l →
    l.x = some x → l.y = some y →
    ∃ u, perform (.endFor k tag .pushOut (.sequence n halted) (.done value)) s = (u, [.finishTest n]) ∧
      u.zones = { s.zones with table := { s.zones.table with occupant := none } } ∧
      u.seq = { s.seq with gauge := .known s.cell.params.gaugeMax true } ∧
      u.lays = s.lays.set n (some { l with
        state := if l.state = .held then .held else .finishing
        heldFrom := if l.state = .held then some .finishing else l.heldFrom
        zone := none, phase := none, target := none }) ∧
      ∃ q : Piece, u.delivery.pieces = s.delivery.pieces ++ [q] ∧ q.lay = n ∧ q.kind = .remainder ∧ q.depth = x ∧
        q.width = y ∧ q.posted = false ∧
        (l.abandoned = true → q.cls = .waste) ∧
        ∀ c, l.abandoned = false → s.stepOf l = some (.endProgram c) →
          q.cls = match c with
            | .block => .block
            | .waste => .waste
            | .auto => if l.zero = true then .block else .waste) ∧
  (∀ (s : State) (n k : Nat) (tag : Option Nat) (o : OrderKind) (halted : Bool) (how : End), how.isDone = false →
    perform (.ended k tag ⟨o, [.sequence n halted]⟩ how) s =
      ({ s with seq := match o with
        | .clamp _ | .release => { s.seq with clamp := .unknown }
        | .move _ | .pushOut => { s.seq with gauge := .unknown }
        | _ => s.seq },
        [.endFor k tag o (.sequence n halted) how])) ∧
  (∀ (s : State) (n c g : Nat) (l : Lay), s.zones.table.occupant = some n → s.lay? n = some l → s.working .clamp = some c →
    s.working .gauge = some g →
    let p := s.cell.params
    let may := (l.state = .cutting ∨ l.state = .draining) ∧ s.sequencing n = false
    let goes := may ∧ (s.cell.state = .running ∨ (s.cell.state = .stopping ∧ s.seq.begun = l.phase))
    let cutGoes := may ∧ s.cell.state = .running
    let down := s.seq.clamp ≠ .released
    let posts := fun (k : Nat) (o : OrderKind) => ([.post k ⟨o, [.sequence n false]⟩] : List Task)
    let moved := fun (v : State) (q : Nat) => { v with seq := { v.seq with gauge := .known q false } }
    let b := { s with seq := { s.seq with begun := l.phase } }
    let atStep := fun (v : State) => { v with lays := s.lays.set n (some { l with phase := none, target := none }) }
    let passes := fun (q : Nat) => 1 ≤ q ∧ p.gaugeMin ≤ q ∧ q ≤ p.gaugeMax
    ((¬may ∨ l.phase = none ∨ (s.cell.state ≠ .running ∧ s.cell.state ≠ .stopping)) → phaseRule s = none) ∧
    (∀ st x i, cutGoes → l.phase = some .positioning → s.stepOf l = some st → l.x = some x → l.step = some i →
      let fails := fun (kind : EventKind) => some (atStep b, ([.raise kind (.lay n) i, .giveUp n] : List Task))
      let v := fun (q : Nat) => { b with lays := s.lays.set n (some { l with target := some q }) }
      (∀ w, (st = .trim w ∨ st = .strip w) → x ≤ w → phaseRule s = fails .shortCut) ∧
      ∀ q, ((∃ w, (st = .trim w ∨ st = .strip w) ∧ w < x ∧ q = x - w) ∨ (∃ cls, st = .cutAt q cls ∧ q < x)) →
        (¬passes q → phaseRule s = fails .gaugeLimit) ∧
        (passes q → down → phaseRule s = some (v q, posts c .release)) ∧
        (passes q → ¬down → phaseRule s = some (moved (v q) q, posts g (.move q)))) ∧
    (∀ level, cutGoes → l.phase = some .clamping → l.press = some level → phaseRule s = some (b, posts c (.clamp level))) ∧
    (cutGoes → l.phase = some .stroking → phaseRule s = none) ∧
    (goes → l.phase = some .releasing →
      (down → phaseRule s = some (b, posts c .release)) ∧
      (¬down → s.seq.inHand = none → l.state = .cutting → phaseRule s = some (atStep b, [])) ∧
      (¬down → s.seq.inHand = none → l.state = .draining → phaseRule s = some
        ({ b with lays := s.lays.set n (some { l with phase := some .pushing, target := some 0 }) }, [])) ∧
      (∀ q, ¬down → s.seq.inHand = some q → l.state = .cutting → phaseRule s = some
        ({ s.handOver q.lay q.cls q.depth q.width .cut with
          seq := { s.seq with inHand := none, begun := l.phase }
          lays := s.lays.set n (some { l with phase := none, target := none }) }, [])) ∧
      (∀ q, ¬down → s.seq.inHand = some q → l.state = .draining → phaseRule s = some
        ({ s.handOver q.lay q.cls q.depth q.width .cut with
          seq := { s.seq with inHand := none, begun := l.phase }
          lays := s.lays.set n (some { l with phase := some .pushing, target := some 0 }) }, []))) ∧
    (∀ q x y i, goes → l.phase = some .turning → s.stepOf l = some (.turn q) → l.x = some x → l.y = some y → l.step = some i →
      let fits := q = 2 ∨ (x ≤ p.tableWidth ∧ y ≤ p.gaugeMax)
      let clear := s.seq.gauge = .known p.gaugeMax true
      (¬fits → phaseRule s = some (atStep b, [.raise .sizeLimit (.lay n) i, .giveUp n])) ∧
      (fits → down → phaseRule s = some (b, posts c .release)) ∧
      (fits → ¬down → ¬clear → phaseRule s = some (moved b p.gaugeMax, posts g (.move p.gaugeMax))) ∧
      (fits → ¬down → clear → s.working .turn = none →
        phaseRule s = some (b, [.raise .orderRefused (.lay n) (reasonIndex .cannot), .giveUp n])) ∧
      ∀ k, fits → ¬down → clear → s.working .turn = some k → phaseRule s = some (b, posts k (.rotate q))) ∧
    (goes → l.phase = some .turning → s.stepOf l = some .invert →
      let clear := s.seq.gauge = .known p.gaugeMax true
      (down → phaseRule s = some (b, posts c .release)) ∧
      (¬down → ¬clear → phaseRule s = some (moved b p.gaugeMax, posts g (.move p.gaugeMax))) ∧
      (¬down → clear → s.working .turn = none →
        phaseRule s = some (b, [.raise .orderRefused (.lay n) (reasonIndex .cannot), .giveUp n])) ∧
      ∀ k, ¬down → clear → s.working .turn = some k → phaseRule s = some (b, posts k .invert)) ∧
    (goes → l.phase = some .pushing →
      (down → phaseRule s = some (b, posts c .release)) ∧
      (¬down → phaseRule s = some ({ b with seq := { b.seq with gauge := .unknown } }, posts g .pushOut))) ∧
    (may → s.cell.state = .stopping → (l.phase = some .positioning ∨ l.phase = some .clamping ∨
        (l.phase = some .stroking ∧ s.permitted n = false)) →
      (down → phaseRule s = some
        ({ s with
          seq := { s.seq with begun := some .releasing }
          lays := s.lays.set n (some { l with phase := some .releasing }) }, posts c .release)) ∧
      (¬down → phaseRule s = some (atStep s, []))) ∧
    (may → s.cell.state = .stopping → l.phase = some .stroking → s.permitted n = true → phaseRule s = none) ∧
    (may → s.cell.state = .stopping → (l.phase = some .releasing ∨ l.phase = some .turning ∨ l.phase = some .pushing) →
      s.seq.begun ≠ l.phase → phaseRule s = none)) ∧
  ∀ s : State,
    let stands := ∃ n l, s.zones.table.occupant = some n ∧ s.lay? n = some l ∧ l.phase = s.seq.begun ∧
      (l.state ≠ .held ∨ s.sequencing n = true)
    (s.seq.begun.isSome = true → ¬stands → begunRule s = some ({ s with seq := { s.seq with begun := none } }, [])) ∧
    (s.seq.begun = none ∨ stands → begunRule s = none)
end

