-- ==== Sys2Proof/Laws/State.lean ====
section
/-! SUPPORT. One lemma per field per update of the state: what the named updates of Machine/Ops.lean and its followers leave as it
stood, and what they write. -/

namespace Sys2Proof.Machine

variable (s : State)

/-! ### setLay -/

@[simp] theorem setLay_pending (n : Nat) (l : Option Lay) : (s.setLay n l).pending = s.pending := rfl

@[simp] theorem setLay_agenda (n : Nat) (l : Option Lay) : (s.setLay n l).agenda = s.agenda := rfl

@[simp] theorem setLay_choices (n : Nat) (l : Option Lay) : (s.setLay n l).choices = s.choices := rfl

@[simp] theorem setLay_resetHeld (n : Nat) (l : Option Lay) : (s.setLay n l).resetHeld = s.resetHeld := rfl

@[simp] theorem setLay_link (n : Nat) (l : Option Lay) : (s.setLay n l).link = s.link := rfl

@[simp] theorem setLay_mgmt (n : Nat) (l : Option Lay) : (s.setLay n l).mgmt = s.mgmt := rfl

@[simp] theorem setLay_intake (n : Nat) (l : Option Lay) : (s.setLay n l).intake = s.intake := rfl

@[simp] theorem setLay_programs (n : Nat) (l : Option Lay) : (s.setLay n l).programs = s.programs := rfl

@[simp] theorem setLay_order (n : Nat) (l : Option Lay) : (s.setLay n l).order = s.order := rfl

@[simp] theorem setLay_zones (n : Nat) (l : Option Lay) : (s.setLay n l).zones = s.zones := rfl

@[simp] theorem setLay_seq (n : Nat) (l : Option Lay) : (s.setLay n l).seq = s.seq := rfl

@[simp] theorem setLay_gate (n : Nat) (l : Option Lay) : (s.setLay n l).gate = s.gate := rfl

@[simp] theorem setLay_slots (n : Nat) (l : Option Lay) : (s.setLay n l).slots = s.slots := rfl

@[simp] theorem setLay_delivery (n : Nat) (l : Option Lay) : (s.setLay n l).delivery = s.delivery := rfl

@[simp] theorem setLay_events (n : Nat) (l : Option Lay) : (s.setLay n l).events = s.events := rfl

@[simp] theorem setLay_cell (n : Nat) (l : Option Lay) : (s.setLay n l).cell = s.cell := rfl

@[simp] theorem setLay_lays (n : Nat) (l : Option Lay) : (s.setLay n l).lays = s.lays.set n l := rfl

/-! ### updateLay -/

@[simp] theorem updateLay_pending (n : Nat) (f : Lay → Lay) : (s.updateLay n f).pending = s.pending := by
  unfold State.updateLay; split <;> rfl

@[simp] theorem updateLay_agenda (n : Nat) (f : Lay → Lay) : (s.updateLay n f).agenda = s.agenda := by
  unfold State.updateLay; split <;> rfl

@[simp] theorem updateLay_choices (n : Nat) (f : Lay → Lay) : (s.updateLay n f).choices = s.choices := by
  unfold State.updateLay; split <;> rfl

@[simp] theorem updateLay_resetHeld (n : Nat) (f : Lay → Lay) : (s.updateLay n f).resetHeld = s.resetHeld := by
  unfold State.updateLay; split <;> rfl

@[simp] theorem updateLay_link (n : Nat) (f : Lay → Lay) : (s.updateLay n f).link = s.link := by
  unfold State.updateLay; split <;> rfl

@[simp] theorem updateLay_mgmt (n : Nat) (f : Lay → Lay) : (s.updateLay n f).mgmt = s.mgmt := by
  unfold State.updateLay; split <;> rfl

@[simp] theorem updateLay_intake (n : Nat) (f : Lay → Lay) : (s.updateLay n f).intake = s.intake := by
  unfold State.updateLay; split <;> rfl

@[simp] theorem updateLay_programs (n : Nat) (f : Lay → Lay) : (s.updateLay n f).programs = s.programs := by
  unfold State.updateLay; split <;> rfl

@[simp] theorem updateLay_order (n : Nat) (f : Lay → Lay) : (s.updateLay n f).order = s.order := by
  unfold State.updateLay; split <;> rfl

@[simp] theorem updateLay_zones (n : Nat) (f : Lay → Lay) : (s.updateLay n f).zones = s.zones := by
  unfold State.updateLay; split <;> rfl

@[simp] theorem updateLay_seq (n : Nat) (f : Lay → Lay) : (s.updateLay n f).seq = s.seq := by
  unfold State.updateLay; split <;> rfl

@[simp] theorem updateLay_gate (n : Nat) (f : Lay → Lay) : (s.updateLay n f).gate = s.gate := by
  unfold State.updateLay; split <;> rfl

@[simp] theorem updateLay_slots (n : Nat) (f : Lay → Lay) : (s.updateLay n f).slots = s.slots := by
  unfold State.updateLay; split <;> rfl

@[simp] theorem updateLay_delivery (n : Nat) (f : Lay → Lay) : (s.updateLay n f).delivery = s.delivery := by
  unfold State.updateLay; split <;> rfl

@[simp] theorem updateLay_events (n : Nat) (f : Lay → Lay) : (s.updateLay n f).events = s.events := by
  unfold State.updateLay; split <;> rfl

@[simp] theorem updateLay_cell (n : Nat) (f : Lay → Lay) : (s.updateLay n f).cell = s.cell := by
  unfold State.updateLay; split <;> rfl

/-! ### setZone -/

@[simp] theorem setZone_pending (i : ZoneId) (v : Zone) : (s.setZone i v).pending = s.pending := rfl

@[simp] theorem setZone_agenda (i : ZoneId) (v : Zone) : (s.setZone i v).agenda = s.agenda := rfl

@[simp] theorem setZone_choices (i : ZoneId) (v : Zone) : (s.setZone i v).choices = s.choices := rfl

@[simp] theorem setZone_resetHeld (i : ZoneId) (v : Zone) : (s.setZone i v).resetHeld = s.resetHeld := rfl

@[simp] theorem setZone_link (i : ZoneId) (v : Zone) : (s.setZone i v).link = s.link := rfl

@[simp] theorem setZone_mgmt (i : ZoneId) (v : Zone) : (s.setZone i v).mgmt = s.mgmt := rfl

@[simp] theorem setZone_intake (i : ZoneId) (v : Zone) : (s.setZone i v).intake = s.intake := rfl

@[simp] theorem setZone_programs (i : ZoneId) (v : Zone) : (s.setZone i v).programs = s.programs := rfl

@[simp] theorem setZone_lays (i : ZoneId) (v : Zone) : (s.setZone i v).lays = s.lays := rfl

@[simp] theorem setZone_order (i : ZoneId) (v : Zone) : (s.setZone i v).order = s.order := rfl

@[simp] theorem setZone_seq (i : ZoneId) (v : Zone) : (s.setZone i v).seq = s.seq := rfl

@[simp] theorem setZone_gate (i : ZoneId) (v : Zone) : (s.setZone i v).gate = s.gate := rfl

@[simp] theorem setZone_slots (i : ZoneId) (v : Zone) : (s.setZone i v).slots = s.slots := rfl

@[simp] theorem setZone_delivery (i : ZoneId) (v : Zone) : (s.setZone i v).delivery = s.delivery := rfl

@[simp] theorem setZone_events (i : ZoneId) (v : Zone) : (s.setZone i v).events = s.events := rfl

@[simp] theorem setZone_cell (i : ZoneId) (v : Zone) : (s.setZone i v).cell = s.cell := rfl

@[simp] theorem setZone_zones (i : ZoneId) (v : Zone) : (s.setZone i v).zones = s.zones.set i v := rfl

/-! ### unreserve -/

@[simp] theorem unreserve_pending (i : ZoneId) : (s.unreserve i).pending = s.pending := rfl

@[simp] theorem unreserve_agenda (i : ZoneId) : (s.unreserve i).agenda = s.agenda := rfl

@[simp] theorem unreserve_choices (i : ZoneId) : (s.unreserve i).choices = s.choices := rfl

@[simp] theorem unreserve_resetHeld (i : ZoneId) : (s.unreserve i).resetHeld = s.resetHeld := rfl

@[simp] theorem unreserve_link (i : ZoneId) : (s.unreserve i).link = s.link := rfl

@[simp] theorem unreserve_mgmt (i : ZoneId) : (s.unreserve i).mgmt = s.mgmt := rfl

@[simp] theorem unreserve_intake (i : ZoneId) : (s.unreserve i).intake = s.intake := rfl

@[simp] theorem unreserve_programs (i : ZoneId) : (s.unreserve i).programs = s.programs := rfl

@[simp] theorem unreserve_lays (i : ZoneId) : (s.unreserve i).lays = s.lays := rfl

@[simp] theorem unreserve_order (i : ZoneId) : (s.unreserve i).order = s.order := rfl

@[simp] theorem unreserve_seq (i : ZoneId) : (s.unreserve i).seq = s.seq := rfl

@[simp] theorem unreserve_gate (i : ZoneId) : (s.unreserve i).gate = s.gate := rfl

@[simp] theorem unreserve_slots (i : ZoneId) : (s.unreserve i).slots = s.slots := rfl

@[simp] theorem unreserve_delivery (i : ZoneId) : (s.unreserve i).delivery = s.delivery := rfl

@[simp] theorem unreserve_events (i : ZoneId) : (s.unreserve i).events = s.events := rfl

@[simp] theorem unreserve_cell (i : ZoneId) : (s.unreserve i).cell = s.cell := rfl

/-! ### setSlot -/

@[simp] theorem setSlot_pending (k : Nat) (x : Slot) : (s.setSlot k x).pending = s.pending := rfl

@[simp] theorem setSlot_agenda (k : Nat) (x : Slot) : (s.setSlot k x).agenda = s.agenda := rfl

@[simp] theorem setSlot_choices (k : Nat) (x : Slot) : (s.setSlot k x).choices = s.choices := rfl

@[simp] theorem setSlot_resetHeld (k : Nat) (x : Slot) : (s.setSlot k x).resetHeld = s.resetHeld := rfl

@[simp] theorem setSlot_link (k : Nat) (x : Slot) : (s.setSlot k x).link = s.link := rfl

@[simp] theorem setSlot_mgmt (k : Nat) (x : Slot) : (s.setSlot k x).mgmt = s.mgmt := rfl

@[simp] theorem setSlot_intake (k : Nat) (x : Slot) : (s.setSlot k x).intake = s.intake := rfl

@[simp] theorem setSlot_programs (k : Nat) (x : Slot) : (s.setSlot k x).programs = s.programs := rfl

@[simp] theorem setSlot_lays (k : Nat) (x : Slot) : (s.setSlot k x).lays = s.lays := rfl

@[simp] theorem setSlot_order (k : Nat) (x : Slot) : (s.setSlot k x).order = s.order := rfl

@[simp] theorem setSlot_zones (k : Nat) (x : Slot) : (s.setSlot k x).zones = s.zones := rfl

@[simp] theorem setSlot_seq (k : Nat) (x : Slot) : (s.setSlot k x).seq = s.seq := rfl

@[simp] theorem setSlot_gate (k : Nat) (x : Slot) : (s.setSlot k x).gate = s.gate := rfl

@[simp] theorem setSlot_delivery (k : Nat) (x : Slot) : (s.setSlot k x).delivery = s.delivery := rfl

@[simp] theorem setSlot_events (k : Nat) (x : Slot) : (s.setSlot k x).events = s.events := rfl

@[simp] theorem setSlot_cell (k : Nat) (x : Slot) : (s.setSlot k x).cell = s.cell := rfl

@[simp] theorem setSlot_slots (k : Nat) (x : Slot) : (s.setSlot k x).slots = s.slots.set k x := rfl

/-! ### updateSlot -/

@[simp] theorem updateSlot_pending (k : Nat) (f : Slot → Slot) : (s.updateSlot k f).pending = s.pending := rfl

@[simp] theorem updateSlot_agenda (k : Nat) (f : Slot → Slot) : (s.updateSlot k f).agenda = s.agenda := rfl

@[simp] theorem updateSlot_choices (k : Nat) (f : Slot → Slot) : (s.updateSlot k f).choices = s.choices := rfl

@[simp] theorem updateSlot_resetHeld (k : Nat) (f : Slot → Slot) : (s.updateSlot k f).resetHeld = s.resetHeld := rfl

@[simp] theorem updateSlot_link (k : Nat) (f : Slot → Slot) : (s.updateSlot k f).link = s.link := rfl

@[simp] theorem updateSlot_mgmt (k : Nat) (f : Slot → Slot) : (s.updateSlot k f).mgmt = s.mgmt := rfl

@[simp] theorem updateSlot_intake (k : Nat) (f : Slot → Slot) : (s.updateSlot k f).intake = s.intake := rfl

@[simp] theorem updateSlot_programs (k : Nat) (f : Slot → Slot) : (s.updateSlot k f).programs = s.programs := rfl

@[simp] theorem updateSlot_lays (k : Nat) (f : Slot → Slot) : (s.updateSlot k f).lays = s.lays := rfl

@[simp] theorem updateSlot_order (k : Nat) (f : Slot → Slot) : (s.updateSlot k f).order = s.order := rfl

@[simp] theorem updateSlot_zones (k : Nat) (f : Slot → Slot) : (s.updateSlot k f).zones = s.zones := rfl

@[simp] theorem updateSlot_seq (k : Nat) (f : Slot → Slot) : (s.updateSlot k f).seq = s.seq := rfl

@[simp] theorem updateSlot_gate (k : Nat) (f : Slot → Slot) : (s.updateSlot k f).gate = s.gate := rfl

@[simp] theorem updateSlot_delivery (k : Nat) (f : Slot → Slot) : (s.updateSlot k f).delivery = s.delivery := rfl

@[simp] theorem updateSlot_events (k : Nat) (f : Slot → Slot) : (s.updateSlot k f).events = s.events := rfl

@[simp] theorem updateSlot_cell (k : Nat) (f : Slot → Slot) : (s.updateSlot k f).cell = s.cell := rfl

@[simp] theorem updateSlot_slots (k : Nat) (f : Slot → Slot) : (s.updateSlot k f).slots = s.slots.set k (f (s.slot k)) := rfl

/-! ### handFrame -/

@[simp] theorem handFrame_pending (f : OrderFrame) : (s.handFrame f).pending = s.pending := rfl

@[simp] theorem handFrame_agenda (f : OrderFrame) : (s.handFrame f).agenda = s.agenda := rfl

@[simp] theorem handFrame_choices (f : OrderFrame) : (s.handFrame f).choices = s.choices := rfl

@[simp] theorem handFrame_resetHeld (f : OrderFrame) : (s.handFrame f).resetHeld = s.resetHeld := rfl

@[simp] theorem handFrame_mgmt (f : OrderFrame) : (s.handFrame f).mgmt = s.mgmt := rfl

@[simp] theorem handFrame_intake (f : OrderFrame) : (s.handFrame f).intake = s.intake := rfl

@[simp] theorem handFrame_programs (f : OrderFrame) : (s.handFrame f).programs = s.programs := rfl

@[simp] theorem handFrame_lays (f : OrderFrame) : (s.handFrame f).lays = s.lays := rfl

@[simp] theorem handFrame_order (f : OrderFrame) : (s.handFrame f).order = s.order := rfl

@[simp] theorem handFrame_zones (f : OrderFrame) : (s.handFrame f).zones = s.zones := rfl

@[simp] theorem handFrame_seq (f : OrderFrame) : (s.handFrame f).seq = s.seq := rfl

@[simp] theorem handFrame_gate (f : OrderFrame) : (s.handFrame f).gate = s.gate := rfl

@[simp] theorem handFrame_slots (f : OrderFrame) : (s.handFrame f).slots = s.slots := rfl

@[simp] theorem handFrame_delivery (f : OrderFrame) : (s.handFrame f).delivery = s.delivery := rfl

@[simp] theorem handFrame_events (f : OrderFrame) : (s.handFrame f).events = s.events := rfl

@[simp] theorem handFrame_cell (f : OrderFrame) : (s.handFrame f).cell = s.cell := rfl

@[simp] theorem handFrame_link (f : OrderFrame) : (s.handFrame f).link = s.link.handFrame f := rfl

/-! ### withdraw -/

@[simp] theorem withdraw_pending (k : Nat) (ts : List Nat) : (s.withdraw k ts).pending = s.pending := rfl

@[simp] theorem withdraw_agenda (k : Nat) (ts : List Nat) : (s.withdraw k ts).agenda = s.agenda := rfl

@[simp] theorem withdraw_choices (k : Nat) (ts : List Nat) : (s.withdraw k ts).choices = s.choices := rfl

@[simp] theorem withdraw_resetHeld (k : Nat) (ts : List Nat) : (s.withdraw k ts).resetHeld = s.resetHeld := rfl

@[simp] theorem withdraw_mgmt (k : Nat) (ts : List Nat) : (s.withdraw k ts).mgmt = s.mgmt := rfl

@[simp] theorem withdraw_intake (k : Nat) (ts : List Nat) : (s.withdraw k ts).intake = s.intake := rfl

@[simp] theorem withdraw_programs (k : Nat) (ts : List Nat) : (s.withdraw k ts).programs = s.programs := rfl

@[simp] theorem withdraw_lays (k : Nat) (ts : List Nat) : (s.withdraw k ts).lays = s.lays := rfl

@[simp] theorem withdraw_order (k : Nat) (ts : List Nat) : (s.withdraw k ts).order = s.order := rfl

@[simp] theorem withdraw_zones (k : Nat) (ts : List Nat) : (s.withdraw k ts).zones = s.zones := rfl

@[simp] theorem withdraw_seq (k : Nat) (ts : List Nat) : (s.withdraw k ts).seq = s.seq := rfl

@[simp] theorem withdraw_gate (k : Nat) (ts : List Nat) : (s.withdraw k ts).gate = s.gate := rfl

@[simp] theorem withdraw_slots (k : Nat) (ts : List Nat) : (s.withdraw k ts).slots = s.slots := rfl

@[simp] theorem withdraw_delivery (k : Nat) (ts : List Nat) : (s.withdraw k ts).delivery = s.delivery := rfl

@[simp] theorem withdraw_events (k : Nat) (ts : List Nat) : (s.withdraw k ts).events = s.events := rfl

@[simp] theorem withdraw_cell (k : Nat) (ts : List Nat) : (s.withdraw k ts).cell = s.cell := rfl

@[simp] theorem withdraw_link (k : Nat) (ts : List Nat) : (s.withdraw k ts).link = { s.link with
    output := s.link.output.filter fun f => !(decide (f.slot = k) && decide (f.tag ∈ ts)) } := rfl

/-! ### endFlight -/

@[simp] theorem endFlight_pending (k : Nat) (x : Slot) : (s.endFlight k x).pending = s.pending := rfl

@[simp] theorem endFlight_agenda (k : Nat) (x : Slot) : (s.endFlight k x).agenda = s.agenda := rfl

@[simp] theorem endFlight_choices (k : Nat) (x : Slot) : (s.endFlight k x).choices = s.choices := rfl

@[simp] theorem endFlight_resetHeld (k : Nat) (x : Slot) : (s.endFlight k x).resetHeld = s.resetHeld := rfl

@[simp] theorem endFlight_mgmt (k : Nat) (x : Slot) : (s.endFlight k x).mgmt = s.mgmt := rfl

@[simp] theorem endFlight_intake (k : Nat) (x : Slot) : (s.endFlight k x).intake = s.intake := rfl

@[simp] theorem endFlight_programs (k : Nat) (x : Slot) : (s.endFlight k x).programs = s.programs := rfl

@[simp] theorem endFlight_lays (k : Nat) (x : Slot) : (s.endFlight k x).lays = s.lays := rfl

@[simp] theorem endFlight_order (k : Nat) (x : Slot) : (s.endFlight k x).order = s.order := rfl

@[simp] theorem endFlight_zones (k : Nat) (x : Slot) : (s.endFlight k x).zones = s.zones := rfl

@[simp] theorem endFlight_seq (k : Nat) (x : Slot) : (s.endFlight k x).seq = s.seq := rfl

@[simp] theorem endFlight_gate (k : Nat) (x : Slot) : (s.endFlight k x).gate = s.gate := rfl

@[simp] theorem endFlight_slots (k : Nat) (x : Slot) : (s.endFlight k x).slots = s.slots.set k x := rfl

@[simp] theorem endFlight_delivery (k : Nat) (x : Slot) : (s.endFlight k x).delivery = s.delivery := rfl

@[simp] theorem endFlight_events (k : Nat) (x : Slot) : (s.endFlight k x).events = s.events := rfl

@[simp] theorem endFlight_cell (k : Nat) (x : Slot) : (s.endFlight k x).cell = s.cell := rfl

@[simp] theorem endFlight_link (k : Nat) (x : Slot) : (s.endFlight k x).link = { s.link with
    output := s.link.output.filter fun f => !(decide (f.slot = k) && decide (f.tag ∈ (s.slot k).flightTags)) } := rfl

/-! ### setLink -/

@[simp] theorem setLink_pending (u : LinkUnit) : (s.setLink u).pending = s.pending := rfl

@[simp] theorem setLink_agenda (u : LinkUnit) : (s.setLink u).agenda = s.agenda := rfl

@[simp] theorem setLink_choices (u : LinkUnit) : (s.setLink u).choices = s.choices := rfl

@[simp] theorem setLink_resetHeld (u : LinkUnit) : (s.setLink u).resetHeld = s.resetHeld := rfl

@[simp] theorem setLink_mgmt (u : LinkUnit) : (s.setLink u).mgmt = s.mgmt := rfl

@[simp] theorem setLink_intake (u : LinkUnit) : (s.setLink u).intake = s.intake := rfl

@[simp] theorem setLink_programs (u : LinkUnit) : (s.setLink u).programs = s.programs := rfl

@[simp] theorem setLink_lays (u : LinkUnit) : (s.setLink u).lays = s.lays := rfl

@[simp] theorem setLink_order (u : LinkUnit) : (s.setLink u).order = s.order := rfl

@[simp] theorem setLink_zones (u : LinkUnit) : (s.setLink u).zones = s.zones := rfl

@[simp] theorem setLink_seq (u : LinkUnit) : (s.setLink u).seq = s.seq := rfl

@[simp] theorem setLink_gate (u : LinkUnit) : (s.setLink u).gate = s.gate := rfl

@[simp] theorem setLink_slots (u : LinkUnit) : (s.setLink u).slots = s.slots := rfl

@[simp] theorem setLink_delivery (u : LinkUnit) : (s.setLink u).delivery = s.delivery := rfl

@[simp] theorem setLink_events (u : LinkUnit) : (s.setLink u).events = s.events := rfl

@[simp] theorem setLink_cell (u : LinkUnit) : (s.setLink u).cell = s.cell := rfl

@[simp] theorem setLink_link (u : LinkUnit) : (s.setLink u).link = u := rfl

/-! ### countU -/

@[simp] theorem countU_pending (f : UStats → UStats) : (s.countU f).pending = s.pending := rfl

@[simp] theorem countU_agenda (f : UStats → UStats) : (s.countU f).agenda = s.agenda := rfl

@[simp] theorem countU_choices (f : UStats → UStats) : (s.countU f).choices = s.choices := rfl

@[simp] theorem countU_resetHeld (f : UStats → UStats) : (s.countU f).resetHeld = s.resetHeld := rfl

@[simp] theorem countU_mgmt (f : UStats → UStats) : (s.countU f).mgmt = s.mgmt := rfl

@[simp] theorem countU_intake (f : UStats → UStats) : (s.countU f).intake = s.intake := rfl

@[simp] theorem countU_programs (f : UStats → UStats) : (s.countU f).programs = s.programs := rfl

@[simp] theorem countU_lays (f : UStats → UStats) : (s.countU f).lays = s.lays := rfl

@[simp] theorem countU_order (f : UStats → UStats) : (s.countU f).order = s.order := rfl

@[simp] theorem countU_zones (f : UStats → UStats) : (s.countU f).zones = s.zones := rfl

@[simp] theorem countU_seq (f : UStats → UStats) : (s.countU f).seq = s.seq := rfl

@[simp] theorem countU_gate (f : UStats → UStats) : (s.countU f).gate = s.gate := rfl

@[simp] theorem countU_slots (f : UStats → UStats) : (s.countU f).slots = s.slots := rfl

@[simp] theorem countU_delivery (f : UStats → UStats) : (s.countU f).delivery = s.delivery := rfl

@[simp] theorem countU_events (f : UStats → UStats) : (s.countU f).events = s.events := rfl

@[simp] theorem countU_cell (f : UStats → UStats) : (s.countU f).cell = s.cell := rfl

@[simp] theorem countU_link (f : UStats → UStats) : (s.countU f).link = { s.link with uStats := f s.link.uStats } := rfl

/-! ### countS -/

@[simp] theorem countS_pending (f : SStats → SStats) : (s.countS f).pending = s.pending := rfl

@[simp] theorem countS_agenda (f : SStats → SStats) : (s.countS f).agenda = s.agenda := rfl

@[simp] theorem countS_choices (f : SStats → SStats) : (s.countS f).choices = s.choices := rfl

@[simp] theorem countS_resetHeld (f : SStats → SStats) : (s.countS f).resetHeld = s.resetHeld := rfl

@[simp] theorem countS_mgmt (f : SStats → SStats) : (s.countS f).mgmt = s.mgmt := rfl

@[simp] theorem countS_intake (f : SStats → SStats) : (s.countS f).intake = s.intake := rfl

@[simp] theorem countS_programs (f : SStats → SStats) : (s.countS f).programs = s.programs := rfl

@[simp] theorem countS_lays (f : SStats → SStats) : (s.countS f).lays = s.lays := rfl

@[simp] theorem countS_order (f : SStats → SStats) : (s.countS f).order = s.order := rfl

@[simp] theorem countS_zones (f : SStats → SStats) : (s.countS f).zones = s.zones := rfl

@[simp] theorem countS_seq (f : SStats → SStats) : (s.countS f).seq = s.seq := rfl

@[simp] theorem countS_gate (f : SStats → SStats) : (s.countS f).gate = s.gate := rfl

@[simp] theorem countS_slots (f : SStats → SStats) : (s.countS f).slots = s.slots := rfl

@[simp] theorem countS_delivery (f : SStats → SStats) : (s.countS f).delivery = s.delivery := rfl

@[simp] theorem countS_events (f : SStats → SStats) : (s.countS f).events = s.events := rfl

@[simp] theorem countS_cell (f : SStats → SStats) : (s.countS f).cell = s.cell := rfl

@[simp] theorem countS_link (f : SStats → SStats) : (s.countS f).link = { s.link with sStats := f s.link.sStats } := rfl

/-! ### answer -/

@[simp] theorem answer_pending (f : UFrame) : (s.answer f).pending = s.pending := rfl

@[simp] theorem answer_agenda (f : UFrame) : (s.answer f).agenda = s.agenda := rfl

@[simp] theorem answer_choices (f : UFrame) : (s.answer f).choices = s.choices := rfl

@[simp] theorem answer_resetHeld (f : UFrame) : (s.answer f).resetHeld = s.resetHeld := rfl

@[simp] theorem answer_mgmt (f : UFrame) : (s.answer f).mgmt = s.mgmt := rfl

@[simp] theorem answer_intake (f : UFrame) : (s.answer f).intake = s.intake := rfl

@[simp] theorem answer_programs (f : UFrame) : (s.answer f).programs = s.programs := rfl

@[simp] theorem answer_lays (f : UFrame) : (s.answer f).lays = s.lays := rfl

@[simp] theorem answer_order (f : UFrame) : (s.answer f).order = s.order := rfl

@[simp] theorem answer_zones (f : UFrame) : (s.answer f).zones = s.zones := rfl

@[simp] theorem answer_seq (f : UFrame) : (s.answer f).seq = s.seq := rfl

@[simp] theorem answer_gate (f : UFrame) : (s.answer f).gate = s.gate := rfl

@[simp] theorem answer_slots (f : UFrame) : (s.answer f).slots = s.slots := rfl

@[simp] theorem answer_delivery (f : UFrame) : (s.answer f).delivery = s.delivery := rfl

@[simp] theorem answer_events (f : UFrame) : (s.answer f).events = s.events := rfl

@[simp] theorem answer_cell (f : UFrame) : (s.answer f).cell = s.cell := rfl

@[simp] theorem answer_link (f : UFrame) : (s.answer f).link = { s.link with answers := s.link.answers ++ [f] } := rfl

/-! ### setClamp -/

@[simp] theorem setClamp_pending (c : ClampRecord) : (s.setClamp c).pending = s.pending := rfl

@[simp] theorem setClamp_agenda (c : ClampRecord) : (s.setClamp c).agenda = s.agenda := rfl

@[simp] theorem setClamp_choices (c : ClampRecord) : (s.setClamp c).choices = s.choices := rfl

@[simp] theorem setClamp_resetHeld (c : ClampRecord) : (s.setClamp c).resetHeld = s.resetHeld := rfl

@[simp] theorem setClamp_link (c : ClampRecord) : (s.setClamp c).link = s.link := rfl

@[simp] theorem setClamp_mgmt (c : ClampRecord) : (s.setClamp c).mgmt = s.mgmt := rfl

@[simp] theorem setClamp_intake (c : ClampRecord) : (s.setClamp c).intake = s.intake := rfl

@[simp] theorem setClamp_programs (c : ClampRecord) : (s.setClamp c).programs = s.programs := rfl

@[simp] theorem setClamp_lays (c : ClampRecord) : (s.setClamp c).lays = s.lays := rfl

@[simp] theorem setClamp_order (c : ClampRecord) : (s.setClamp c).order = s.order := rfl

@[simp] theorem setClamp_zones (c : ClampRecord) : (s.setClamp c).zones = s.zones := rfl

@[simp] theorem setClamp_gate (c : ClampRecord) : (s.setClamp c).gate = s.gate := rfl

@[simp] theorem setClamp_slots (c : ClampRecord) : (s.setClamp c).slots = s.slots := rfl

@[simp] theorem setClamp_delivery (c : ClampRecord) : (s.setClamp c).delivery = s.delivery := rfl

@[simp] theorem setClamp_events (c : ClampRecord) : (s.setClamp c).events = s.events := rfl

@[simp] theorem setClamp_cell (c : ClampRecord) : (s.setClamp c).cell = s.cell := rfl

@[simp] theorem setClamp_seq (c : ClampRecord) : (s.setClamp c).seq = { s.seq with clamp := c } := rfl

/-! ### setGauge -/

@[simp] theorem setGauge_pending (g : GaugeRecord) : (s.setGauge g).pending = s.pending := rfl

@[simp] theorem setGauge_agenda (g : GaugeRecord) : (s.setGauge g).agenda = s.agenda := rfl

@[simp] theorem setGauge_choices (g : GaugeRecord) : (s.setGauge g).choices = s.choices := rfl

@[simp] theorem setGauge_resetHeld (g : GaugeRecord) : (s.setGauge g).resetHeld = s.resetHeld := rfl

@[simp] theorem setGauge_link (g : GaugeRecord) : (s.setGauge g).link = s.link := rfl

@[simp] theorem setGauge_mgmt (g : GaugeRecord) : (s.setGauge g).mgmt = s.mgmt := rfl

@[simp] theorem setGauge_intake (g : GaugeRecord) : (s.setGauge g).intake = s.intake := rfl

@[simp] theorem setGauge_programs (g : GaugeRecord) : (s.setGauge g).programs = s.programs := rfl

@[simp] theorem setGauge_lays (g : GaugeRecord) : (s.setGauge g).lays = s.lays := rfl

@[simp] theorem setGauge_order (g : GaugeRecord) : (s.setGauge g).order = s.order := rfl

@[simp] theorem setGauge_zones (g : GaugeRecord) : (s.setGauge g).zones = s.zones := rfl

@[simp] theorem setGauge_gate (g : GaugeRecord) : (s.setGauge g).gate = s.gate := rfl

@[simp] theorem setGauge_slots (g : GaugeRecord) : (s.setGauge g).slots = s.slots := rfl

@[simp] theorem setGauge_delivery (g : GaugeRecord) : (s.setGauge g).delivery = s.delivery := rfl

@[simp] theorem setGauge_events (g : GaugeRecord) : (s.setGauge g).events = s.events := rfl

@[simp] theorem setGauge_cell (g : GaugeRecord) : (s.setGauge g).cell = s.cell := rfl

@[simp] theorem setGauge_seq (g : GaugeRecord) : (s.setGauge g).seq = { s.seq with gauge := g } := rfl

/-! ### setCell -/

@[simp] theorem setCell_pending (c : CellControl) : (s.setCell c).pending = s.pending := rfl

@[simp] theorem setCell_agenda (c : CellControl) : (s.setCell c).agenda = s.agenda := rfl

@[simp] theorem setCell_choices (c : CellControl) : (s.setCell c).choices = s.choices := rfl

@[simp] theorem setCell_resetHeld (c : CellControl) : (s.setCell c).resetHeld = s.resetHeld := rfl

@[simp] theorem setCell_link (c : CellControl) : (s.setCell c).link = s.link := rfl

@[simp] theorem setCell_mgmt (c : CellControl) : (s.setCell c).mgmt = s.mgmt := rfl

@[simp] theorem setCell_intake (c : CellControl) : (s.setCell c).intake = s.intake := rfl

@[simp] theorem setCell_programs (c : CellControl) : (s.setCell c).programs = s.programs := rfl

@[simp] theorem setCell_lays (c : CellControl) : (s.setCell c).lays = s.lays := rfl

@[simp] theorem setCell_order (c : CellControl) : (s.setCell c).order = s.order := rfl

@[simp] theorem setCell_zones (c : CellControl) : (s.setCell c).zones = s.zones := rfl

@[simp] theorem setCell_seq (c : CellControl) : (s.setCell c).seq = s.seq := rfl

@[simp] theorem setCell_gate (c : CellControl) : (s.setCell c).gate = s.gate := rfl

@[simp] theorem setCell_slots (c : CellControl) : (s.setCell c).slots = s.slots := rfl

@[simp] theorem setCell_delivery (c : CellControl) : (s.setCell c).delivery = s.delivery := rfl

@[simp] theorem setCell_events (c : CellControl) : (s.setCell c).events = s.events := rfl

@[simp] theorem setCell_cell (c : CellControl) : (s.setCell c).cell = c := rfl

/-! ### setProgram -/

@[simp] theorem setProgram_pending (p : Nat) (l : Option (List Step)) : (s.setProgram p l).pending = s.pending := rfl

@[simp] theorem setProgram_agenda (p : Nat) (l : Option (List Step)) : (s.setProgram p l).agenda = s.agenda := rfl

@[simp] theorem setProgram_choices (p : Nat) (l : Option (List Step)) : (s.setProgram p l).choices = s.choices := rfl

@[simp] theorem setProgram_resetHeld (p : Nat) (l : Option (List Step)) : (s.setProgram p l).resetHeld = s.resetHeld := rfl

@[simp] theorem setProgram_link (p : Nat) (l : Option (List Step)) : (s.setProgram p l).link = s.link := rfl

@[simp] theorem setProgram_mgmt (p : Nat) (l : Option (List Step)) : (s.setProgram p l).mgmt = s.mgmt := rfl

@[simp] theorem setProgram_intake (p : Nat) (l : Option (List Step)) : (s.setProgram p l).intake = s.intake := rfl

@[simp] theorem setProgram_lays (p : Nat) (l : Option (List Step)) : (s.setProgram p l).lays = s.lays := rfl

@[simp] theorem setProgram_order (p : Nat) (l : Option (List Step)) : (s.setProgram p l).order = s.order := rfl

@[simp] theorem setProgram_zones (p : Nat) (l : Option (List Step)) : (s.setProgram p l).zones = s.zones := rfl

@[simp] theorem setProgram_seq (p : Nat) (l : Option (List Step)) : (s.setProgram p l).seq = s.seq := rfl

@[simp] theorem setProgram_gate (p : Nat) (l : Option (List Step)) : (s.setProgram p l).gate = s.gate := rfl

@[simp] theorem setProgram_slots (p : Nat) (l : Option (List Step)) : (s.setProgram p l).slots = s.slots := rfl

@[simp] theorem setProgram_delivery (p : Nat) (l : Option (List Step)) : (s.setProgram p l).delivery = s.delivery := rfl

@[simp] theorem setProgram_events (p : Nat) (l : Option (List Step)) : (s.setProgram p l).events = s.events := rfl

@[simp] theorem setProgram_cell (p : Nat) (l : Option (List Step)) : (s.setProgram p l).cell = s.cell := rfl

@[simp] theorem setProgram_programs (p : Nat) (l : Option (List Step)) : (s.setProgram p l).programs = s.programs.set p l := rfl

/-! ### record -/

@[simp] theorem record_pending (k : EventKind) (j : Subject) (d : Nat) : (s.record k j d).pending = s.pending := rfl

@[simp] theorem record_agenda (k : EventKind) (j : Subject) (d : Nat) : (s.record k j d).agenda = s.agenda := rfl

@[simp] theorem record_choices (k : EventKind) (j : Subject) (d : Nat) : (s.record k j d).choices = s.choices := rfl

@[simp] theorem record_resetHeld (k : EventKind) (j : Subject) (d : Nat) : (s.record k j d).resetHeld = s.resetHeld := rfl

@[simp] theorem record_link (k : EventKind) (j : Subject) (d : Nat) : (s.record k j d).link = s.link := rfl

@[simp] theorem record_mgmt (k : EventKind) (j : Subject) (d : Nat) : (s.record k j d).mgmt = s.mgmt := rfl

@[simp] theorem record_intake (k : EventKind) (j : Subject) (d : Nat) : (s.record k j d).intake = s.intake := rfl

@[simp] theorem record_programs (k : EventKind) (j : Subject) (d : Nat) : (s.record k j d).programs = s.programs := rfl

@[simp] theorem record_lays (k : EventKind) (j : Subject) (d : Nat) : (s.record k j d).lays = s.lays := rfl

@[simp] theorem record_order (k : EventKind) (j : Subject) (d : Nat) : (s.record k j d).order = s.order := rfl

@[simp] theorem record_zones (k : EventKind) (j : Subject) (d : Nat) : (s.record k j d).zones = s.zones := rfl

@[simp] theorem record_seq (k : EventKind) (j : Subject) (d : Nat) : (s.record k j d).seq = s.seq := rfl

@[simp] theorem record_gate (k : EventKind) (j : Subject) (d : Nat) : (s.record k j d).gate = s.gate := rfl

@[simp] theorem record_slots (k : EventKind) (j : Subject) (d : Nat) : (s.record k j d).slots = s.slots := rfl

@[simp] theorem record_delivery (k : EventKind) (j : Subject) (d : Nat) : (s.record k j d).delivery = s.delivery := rfl

@[simp] theorem record_cell (k : EventKind) (j : Subject) (d : Nat) : (s.record k j d).cell = s.cell := rfl

@[simp] theorem record_events (k : EventKind) (j : Subject) (d : Nat) : (s.record k j d).events = s.events.modifyKind k.index (KindRecord.take j d) := rfl

/-! ### hold -/

@[simp] theorem hold_pending (n : Nat) (c : HoldCause) : (s.hold n c).pending = s.pending := updateLay_pending s n (Lay.hold c)

@[simp] theorem hold_agenda (n : Nat) (c : HoldCause) : (s.hold n c).agenda = s.agenda := updateLay_agenda s n (Lay.hold c)

@[simp] theorem hold_choices (n : Nat) (c : HoldCause) : (s.hold n c).choices = s.choices := updateLay_choices s n (Lay.hold c)

@[simp] theorem hold_resetHeld (n : Nat) (c : HoldCause) : (s.hold n c).resetHeld = s.resetHeld := updateLay_resetHeld s n (Lay.hold c)

@[simp] theorem hold_link (n : Nat) (c : HoldCause) : (s.hold n c).link = s.link := updateLay_link s n (Lay.hold c)

@[simp] theorem hold_mgmt (n : Nat) (c : HoldCause) : (s.hold n c).mgmt = s.mgmt := updateLay_mgmt s n (Lay.hold c)

@[simp] theorem hold_intake (n : Nat) (c : HoldCause) : (s.hold n c).intake = s.intake := updateLay_intake s n (Lay.hold c)

@[simp] theorem hold_programs (n : Nat) (c : HoldCause) : (s.hold n c).programs = s.programs := updateLay_programs s n (Lay.hold c)

@[simp] theorem hold_order (n : Nat) (c : HoldCause) : (s.hold n c).order = s.order := updateLay_order s n (Lay.hold c)

@[simp] theorem hold_zones (n : Nat) (c : HoldCause) : (s.hold n c).zones = s.zones := updateLay_zones s n (Lay.hold c)

@[simp] theorem hold_seq (n : Nat) (c : HoldCause) : (s.hold n c).seq = s.seq := updateLay_seq s n (Lay.hold c)

@[simp] theorem hold_gate (n : Nat) (c : HoldCause) : (s.hold n c).gate = s.gate := updateLay_gate s n (Lay.hold c)

@[simp] theorem hold_slots (n : Nat) (c : HoldCause) : (s.hold n c).slots = s.slots := updateLay_slots s n (Lay.hold c)

@[simp] theorem hold_delivery (n : Nat) (c : HoldCause) : (s.hold n c).delivery = s.delivery := updateLay_delivery s n (Lay.hold c)

@[simp] theorem hold_events (n : Nat) (c : HoldCause) : (s.hold n c).events = s.events := updateLay_events s n (Lay.hold c)

@[simp] theorem hold_cell (n : Nat) (c : HoldCause) : (s.hold n c).cell = s.cell := updateLay_cell s n (Lay.hold c)

end Sys2Proof.Machine
end

