-- ==== Sys2Proof/Laws/Frame.lean ====
section
/-! SUPPORT. What no event's work touches (State.frame, State.untouched): one lemma per operation, up to a whole event. -/

namespace Sys2Proof.Machine

/-- What no work of an event touches: the frame, the direct credit, the sizes of the tables, the frame being sent, and whether a REPLY
waits. -/
def State.untouched (s : State) := (s.frame, s.link.credit, s.lays.length, s.slots.length, s.link.sending,
  s.link.answers.any fun f => decide (f.kind = .reply))

theorem frame_of_untouched {s t : State} (h : s.untouched = t.untouched) : s.frame = t.frame := congrArg Prod.fst h

/-! ### The named updates -/

@[simp] theorem setLay_untouched (s : State) (n : Nat) (l : Option Lay) : (s.setLay n l).untouched = s.untouched := by
  simp [State.untouched, State.frame]

@[simp] theorem updateLay_untouched (s : State) (n : Nat) (f : Lay → Lay) : (s.updateLay n f).untouched = s.untouched := by
  unfold State.updateLay; split <;> simp [State.untouched, State.frame]

@[simp] theorem setZone_untouched (s : State) (i : ZoneId) (v : Zone) : (s.setZone i v).untouched = s.untouched := by
  simp [State.untouched, State.frame]

@[simp] theorem unreserve_untouched (s : State) (i : ZoneId) : (s.unreserve i).untouched = s.untouched := by
  simp [State.untouched, State.frame]

@[simp] theorem occupy_untouched (s : State) (i : ZoneId) (n : Nat) : (s.occupy i n).untouched = s.untouched := by
  simp [State.occupy]

@[simp] theorem vacate_untouched (s : State) (i : ZoneId) (n : Nat) : (s.vacate i n).untouched = s.untouched := by
  simp [State.vacate]

@[simp] theorem setSlot_untouched (s : State) (k : Nat) (x : Slot) : (s.setSlot k x).untouched = s.untouched := by
  simp [State.untouched, State.frame]

@[simp] theorem updateSlot_untouched (s : State) (k : Nat) (f : Slot → Slot) : (s.updateSlot k f).untouched = s.untouched := by
  simp [State.untouched, State.frame]

@[simp] theorem withdraw_untouched (s : State) (k : Nat) (ts : List Nat) : (s.withdraw k ts).untouched = s.untouched := rfl

@[simp] theorem endFlight_untouched (s : State) (k : Nat) (x : Slot) : (s.endFlight k x).untouched = s.untouched := by
  simp [State.endFlight]

@[simp] theorem handFrame_untouched (s : State) (f : OrderFrame) : (s.handFrame f).untouched = s.untouched := by
  unfold State.handFrame LinkUnit.handFrame; split
  · rfl
  · split <;> rfl

@[simp] theorem setClamp_untouched (s : State) (c : ClampRecord) : (s.setClamp c).untouched = s.untouched := by
  simp [State.untouched, State.frame]

@[simp] theorem setGauge_untouched (s : State) (g : GaugeRecord) : (s.setGauge g).untouched = s.untouched := by
  simp [State.untouched, State.frame]

theorem take_class (j : Subject) (d : Nat) (r : KindRecord) :
    ((r.take j d).cls, (r.take j d).notice) = (r.cls, r.notice) := by
  unfold KindRecord.take; split <;> rfl

theorem map_set_same {α β : Type} (f : α → β) (l : List α) (i : Nat) (a : α) (h : ∀ b, l[i]? = some b → f a = f b) :
    (l.set i a).map f = l.map f := by
  apply List.ext_getElem?
  intro n
  simp only [List.getElem?_map, List.getElem?_set]
  split
  · subst_vars
    split
    · rename_i hlt
      simp [List.getElem?_eq_getElem hlt, h _ (List.getElem?_eq_getElem hlt)]
    · rename_i hlt
      simp [List.getElem?_eq_none (Nat.le_of_not_lt hlt)]
  · rfl

/-- A change of one kind's record that keeps its class and notice bit keeps every kind's. -/
theorem modifyKind_classes (e : EventUnit) (i : Nat) (f : KindRecord → KindRecord)
    (h : ∀ r, ((f r).cls, (f r).notice) = (r.cls, r.notice)) :
    (e.modifyKind i f).kinds.map (fun r => (r.cls, r.notice)) = e.kinds.map (fun r => (r.cls, r.notice)) := by
  apply map_set_same
  intro b hb
  simp [EventUnit.kindAt, hb, h]

@[simp] theorem record_untouched (s : State) (k : EventKind) (j : Subject) (d : Nat) : (s.record k j d).untouched = s.untouched := by
  simp only [State.untouched, State.frame, record_events, modifyKind_classes _ _ _ (take_class j d)]
  rfl

@[simp] theorem hold_untouched (s : State) (n : Nat) (c : HoldCause) : (s.hold n c).untouched = s.untouched := by
  simp [State.hold]

theorem answer_untouched (s : State) {f : UFrame} (h : f.kind ≠ .reply) : (s.answer f).untouched = s.untouched := by
  simp [State.untouched, State.frame, State.answer, State.setLink, h]

@[simp] theorem answerDirect_untouched (s : State) (node : Nat) (tag : Byte) (r : DirectResult) :
    (s.answer (directAnswer node tag r)).untouched = s.untouched := answer_untouched s (by simp [directAnswer])

@[simp] theorem gate_untouched (s : State) (g : Gate) : State.untouched { s with gate := g } = s.untouched := by
  simp [State.untouched, State.frame]

@[simp] theorem deferred_untouched (s : State) (d : Option DeferredHold) :
    State.untouched { s with events := { s.events with deferred := d } } = s.untouched := rfl

@[simp] theorem delivery_untouched (s : State) (d : Delivery) : State.untouched { s with delivery := d } = s.untouched := by
  simp [State.untouched, State.frame]

@[simp] theorem seq_untouched (s : State) (q : Sequencer) : State.untouched { s with seq := q } = s.untouched := by
  simp [State.untouched, State.frame]

@[simp] theorem slots_untouched (s : State) (f : Slot → Slot) : State.untouched { s with slots := s.slots.map f } = s.untouched := by
  simp [State.untouched, State.frame]

@[simp] theorem agenda_untouched (s : State) (l : List Task) : State.untouched { s with agenda := l } = s.untouched := by
  simp [State.untouched, State.frame]

@[simp] theorem choices_untouched (s : State) (n : Nat) : State.untouched { s with choices := n } = s.untouched := by
  simp [State.untouched, State.frame]

/-! ### Orders -/

@[simp] theorem sendOrder_untouched (s : State) (k : Nat) (o : Order) (ms : Nat) : (s.sendOrder k o ms).untouched = s.untouched := by
  simp [State.sendOrder]

@[simp] theorem announceStop_untouched (k : Nat) (o : Order) (s : State) : (announceStop k o s).untouched = s.untouched := by
  simp [announceStop]

@[simp] theorem headStop_untouched (k : Nat) (o : Order) (s : State) : (headStop k o s).1.untouched = s.untouched := by
  unfold headStop; dsimp only; repeat' split
  all_goals simp

@[simp] theorem placeStop_untouched (k : Nat) (o : Order) (s : State) : (placeStop k o s).1.untouched = s.untouched := by
  unfold placeStop; dsimp only; repeat' split
  all_goals simp

@[simp] theorem placeFull_untouched (k : Nat) (o : Order) (s : State) : (placeFull k o s).1.untouched = s.untouched := by
  unfold placeFull; dsimp only; repeat' split
  all_goals simp

@[simp] theorem postOrder_untouched (k : Nat) (o : Order) (s : State) : (postOrder k o s).1.untouched = s.untouched := by
  unfold postOrder; dsimp only; repeat' split
  all_goals simp


/-! ### Sending -/

@[simp] theorem sendLamp_untouched (s : State) (k : Nat) (v : LampState) : (s.sendLamp k v).untouched = s.untouched := by
  unfold State.sendLamp; (try dsimp only); repeat' split
  all_goals first | rfl | simp | simp [State.untouched, State.frame]

@[simp] theorem sendHead_untouched (s : State) (k : Nat) (o : Order) (rest : List Order) : (s.sendHead k o rest).untouched = s.untouched := by
  unfold State.sendHead; (try dsimp only); repeat' split
  all_goals first | rfl | simp | simp [State.untouched, State.frame]


/-! ### Events and holds -/

@[simp] theorem haltCell_untouched (c : EventRecord) (s : State) : (haltCell c s).1.untouched = s.untouched := by
  simp [haltCell, State.untouched, State.frame]

@[simp] theorem holdByEvent_untouched (n : Nat) (k : EventKind) (d : Nat) (s : State) : (holdByEvent n k d s).1.untouched = s.untouched := by
  unfold holdByEvent; (try dsimp only); repeat' split
  all_goals first | rfl | simp | simp [State.untouched, State.frame]

@[simp] theorem escalate_untouched (c : EventClass) (k : EventKind) (j : Subject) (d : Nat) (s : State) : (escalate c k j d s).1.untouched = s.untouched := by
  unfold escalate; (try dsimp only); repeat' split
  all_goals first | rfl | simp | simp [State.untouched, State.frame]

@[simp] theorem takeEvent_untouched (k : EventKind) (j : Subject) (d : Nat) (s : State) : (takeEvent k j d s).1.untouched = s.untouched := by
  unfold takeEvent; (try dsimp only); repeat' split
  all_goals first | rfl | simp | simp [State.untouched, State.frame]

@[simp] theorem takeDeferred_untouched (s : State) : (s.takeDeferred).untouched = s.untouched := by
  unfold State.takeDeferred; (try dsimp only); repeat' split
  all_goals first | rfl | simp | simp [State.untouched, State.frame]


/-! ### Lays -/

@[simp] theorem freeLay_untouched (s : State) (n : Nat) (l : Lay) : (s.freeLay n l).untouched = s.untouched := by
  simp [State.freeLay, State.untouched, State.frame]

@[simp] theorem finishTest_untouched (n : Nat) (s : State) : (finishTest n s).1.untouched = s.untouched := by
  unfold finishTest; (try dsimp only); repeat' split
  all_goals first | rfl | simp | simp [State.untouched, State.frame]

@[simp] theorem finishAbandoned_untouched (n : Nat) (s : State) : (finishAbandoned n s).1.untouched = s.untouched := by
  unfold finishAbandoned; (try dsimp only); repeat' split
  all_goals first | rfl | simp | simp [State.untouched, State.frame]

@[simp] theorem drain_untouched (n : Nat) (s : State) : (drain n s).untouched = s.untouched := by
  unfold drain; (try dsimp only); repeat' split
  all_goals first | rfl | simp | simp [State.untouched, State.frame]

@[simp] theorem lower_untouched (n : Nat) (s : State) : (lower n s).untouched = s.untouched := by
  unfold lower; (try dsimp only); repeat' split
  all_goals first | rfl | simp | simp [State.untouched, State.frame]

@[simp] theorem takeAbandon_untouched (n : Nat) (s : State) : (takeAbandon n s).1.untouched = s.untouched := by
  unfold takeAbandon; (try dsimp only); repeat' split
  all_goals first | rfl | simp | simp [State.untouched, State.frame]

@[simp] theorem moveEnded_untouched (n : Nat) (s : State) : (moveEnded n s).1.untouched = s.untouched := by
  unfold moveEnded; (try dsimp only); repeat' split
  all_goals first | rfl | simp | simp [State.untouched, State.frame]

@[simp] theorem bindLay_untouched (n : Nat) (e : JobEntry) (s : State) : (bindLay n e s).1.untouched = s.untouched := by
  unfold bindLay; (try dsimp only); repeat' split
  all_goals first | rfl | simp | simp [State.untouched, State.frame]

@[simp] theorem searchMap_untouched (n job : Nat) (s : State) : (searchMap n job s).1.untouched = s.untouched := by
  unfold searchMap; (try dsimp only); repeat' split
  all_goals first | rfl | simp | simp [State.untouched, State.frame]

@[simp] theorem fillEnds_untouched (s : State) : (fillEnds s).1.untouched = s.untouched := by
  unfold fillEnds; (try dsimp only); repeat' split
  all_goals first | rfl | simp | simp [State.untouched, State.frame]

@[simp] theorem releaseLay_untouched (n : Nat) (s : State) : (releaseLay n s).1.untouched = s.untouched := by
  unfold releaseLay; (try dsimp only); repeat' split
  all_goals first | rfl | simp | simp [State.untouched, State.frame]

@[simp] theorem recheckFailed_untouched (n : Nat) (k : EventKind) (d : Nat) (s : State) : (recheckFailed n k d s).1.untouched = s.untouched := by
  unfold recheckFailed; (try dsimp only); repeat' split
  all_goals first | rfl | simp | simp [State.untouched, State.frame]


/-! ### Steps -/

@[simp] theorem giveUp_untouched (n : Nat) (s : State) : (giveUp n s).1.untouched = s.untouched := by
  unfold giveUp; (try dsimp only); repeat' split
  all_goals first | rfl | simp | simp [State.untouched, State.frame]

@[simp] theorem checkFails_untouched (n : Nat) (k : EventKind) (s : State) : (checkFails n k s).1.untouched = s.untouched := by
  unfold checkFails; (try dsimp only); repeat' split
  all_goals first | rfl | simp | simp [State.untouched, State.frame]

@[simp] theorem execCut_untouched (n : Nat) (st : Step) (x : Nat) (s : State) : (execCut n st x s).1.untouched = s.untouched := by
  unfold execCut; (try dsimp only); repeat' split
  all_goals first | rfl | simp | simp [State.untouched, State.frame]

@[simp] theorem execStep_untouched (n : Nat) (l : Lay) (st : Step) (s : State) : (execStep n l st s).1.untouched = s.untouched := by
  unfold execStep; (try dsimp only); repeat' split
  all_goals first | rfl | simp | simp [State.untouched, State.frame]

@[simp] theorem evalStep_untouched (n : Nat) (l : Lay) (st : Step) (s : State) : (evalStep n l st s).1.untouched = s.untouched := by
  unfold evalStep; (try dsimp only); repeat' split
  all_goals first | rfl | simp | simp [State.untouched, State.frame]

@[simp] theorem execUnheld_untouched (n : Nat) (s : State) : (execUnheld n s).1.untouched = s.untouched := by
  unfold execUnheld; (try dsimp only); repeat' split
  all_goals simp

@[simp] theorem drainUnheld_untouched (n : Nat) (s : State) : (drainUnheld n s).1.untouched = s.untouched := by
  unfold drainUnheld; (try dsimp only); repeat' split
  all_goals first | rfl | simp | simp [State.untouched, State.frame]


/-! ### Delivery -/

@[simp] theorem handOver_untouched (s : State) (n : Nat) (c : PieceClass) (d w : Nat) (k : PieceKind) : (s.handOver n c d w k).untouched = s.untouched := by
  unfold State.handOver; (try dsimp only); repeat' split
  all_goals first | rfl | simp | simp [State.untouched, State.frame]

@[simp] theorem handOverInHand_untouched (s : State) : (s.handOverInHand).untouched = s.untouched := by
  unfold State.handOverInHand; (try dsimp only); repeat' split
  all_goals first | rfl | simp | simp [State.untouched, State.frame]

@[simp] theorem unpost_untouched (s : State) (i : Nat) : (s.unpost i).untouched = s.untouched := by
  unfold State.unpost; (try dsimp only); repeat' split
  all_goals first | rfl | simp | simp [State.untouched, State.frame]

@[simp] theorem deliverEnds_untouched (n i : Nat) (how : End) (s : State) : (deliverEnds n i how s).1.untouched = s.untouched := by
  unfold deliverEnds; (try dsimp only); repeat' split
  all_goals first | rfl | simp | simp [State.untouched, State.frame]


/-! ### The arbiter -/

@[simp] theorem grantMove_untouched (m : ZoneId × ZoneId) (n : Nat) (s : State) : (grantMove m n s).1.untouched = s.untouched := by
  unfold grantMove; (try dsimp only); repeat' split
  all_goals first | rfl | simp | simp [State.untouched, State.frame]

@[simp] theorem presentEnds_untouched (n : Nat) (how : End) (s : State) : (presentEnds n how s).1.untouched = s.untouched := by
  unfold presentEnds; (try dsimp only); repeat' split
  all_goals first | rfl | simp | simp [State.untouched, State.frame]

@[simp] theorem lowerEnds_untouched (n : Nat) (how : End) (s : State) : (lowerEnds n how s).1.untouched = s.untouched := by
  unfold lowerEnds; (try dsimp only); repeat' split
  all_goals first | rfl | simp | simp [State.untouched, State.frame]

@[simp] theorem moveLayEnds_untouched (a b : ZoneId) (n : Nat) (how : End) (s : State) : (moveLayEnds a b n how s).1.untouched = s.untouched := by
  unfold moveLayEnds; (try dsimp only); repeat' split
  all_goals first | rfl | simp | simp [State.untouched, State.frame]

@[simp] theorem jogEnds_untouched (n : Nat) (how : End) (s : State) : (jogEnds n how s).1.untouched = s.untouched := by
  unfold jogEnds; (try dsimp only); repeat' split
  all_goals first | rfl | simp | simp [State.untouched, State.frame]

@[simp] theorem arbiterEnds_untouched (k : OrderKind) (n : Nat) (how : End) (s : State) : (arbiterEnds k n how s).1.untouched = s.untouched := by
  unfold arbiterEnds; (try dsimp only); repeat' split
  all_goals first | rfl | simp | simp [State.untouched, State.frame]


/-! ### The gate -/

@[simp] theorem issuePermit_untouched (n : Nat) (s : State) : (issuePermit n s).1.untouched = s.untouched := by
  unfold issuePermit; (try dsimp only); repeat' split
  all_goals first | rfl | simp | simp [State.untouched, State.frame]

@[simp] theorem lockOutGate_untouched (s : State) : (lockOutGate s).1.untouched = s.untouched := by
  unfold lockOutGate; (try dsimp only); repeat' split
  all_goals first | rfl | simp | simp [State.untouched, State.frame]

@[simp] theorem strokeFails_untouched (d : Nat) (s : State) : (strokeFails d s).1.untouched = s.untouched := by
  unfold strokeFails; (try dsimp only); repeat' split
  all_goals first | rfl | simp | simp [State.untouched, State.frame]

@[simp] theorem unbidden_untouched (d : Nat) (s : State) : (unbidden d s).1.untouched = s.untouched := by
  unfold unbidden; (try dsimp only); repeat' split
  all_goals first | rfl | simp | simp [State.untouched, State.frame]

@[simp] theorem lockOutOrder_untouched (s : State) : (lockOutOrder s).1.untouched = s.untouched := by
  unfold lockOutOrder; (try dsimp only); repeat' split
  all_goals first | rfl | simp | simp [State.untouched, State.frame]

@[simp] theorem commitCut_untouched (n : Nat) (s : State) : (commitCut n s).untouched = s.untouched := by
  unfold commitCut; split <;> simp [State.untouched, State.frame]

@[simp] theorem strokeDone_untouched (s : State) : (strokeDone s).1.untouched = s.untouched := by
  unfold strokeDone; (try dsimp only); repeat' split
  all_goals first | rfl | simp | simp [State.untouched, State.frame]

@[simp] theorem strokeEndsOpen_untouched (n tag : Nat) (how : End) (s : State) : (strokeEndsOpen n tag how s).1.untouched = s.untouched := by
  unfold strokeEndsOpen; (try dsimp only); repeat' split
  all_goals first | rfl | simp | simp [State.untouched, State.frame]

@[simp] theorem strokeEndsStroke_untouched (how : End) (s : State) : (strokeEndsStroke how s).1.untouched = s.untouched := by
  unfold strokeEndsStroke; (try dsimp only); repeat' split
  all_goals first | rfl | simp | simp [State.untouched, State.frame]

@[simp] theorem gateEnds_untouched (o : OrderKind) (k n : Nat) (tag : Option Nat) (how : End) (s : State) :
    (gateEnds o k n tag how s).1.untouched = s.untouched := by
  unfold gateEnds; (try dsimp only); repeat' split
  all_goals first | rfl | simp | simp [State.untouched, State.frame]


/-! ### The cut cycle -/

@[simp] theorem sequence_untouched (s : State) (kind : StationKind) (o : OrderKind) (n : Nat) : (s.sequence kind o n).1.untouched = s.untouched := by
  unfold State.sequence; (try dsimp only); repeat' split
  all_goals first | rfl | simp | simp [State.untouched, State.frame]

@[simp] theorem sequenceMove_untouched (s : State) (p n : Nat) : (s.sequenceMove p n).1.untouched = s.untouched := by
  unfold State.sequenceMove; (try dsimp only); repeat' split
  all_goals first | rfl | simp | simp [State.untouched, State.frame]

@[simp] theorem beginPositioning_untouched (n : Nat) (l : Lay) (s : State) : (beginPositioning n l s).1.untouched = s.untouched := by
  unfold beginPositioning; (try dsimp only); repeat' split
  all_goals first | rfl | simp | simp [State.untouched, State.frame]

@[simp] theorem releasingEnds_untouched (n : Nat) (s : State) : (releasingEnds n s).untouched = s.untouched := by
  unfold releasingEnds; (try dsimp only); repeat' split
  all_goals first | rfl | simp | simp [State.untouched, State.frame]

@[simp] theorem beginReleasing_untouched (n : Nat) (s : State) : (beginReleasing n s).1.untouched = s.untouched := by
  unfold beginReleasing; (try dsimp only); repeat' split
  all_goals first | rfl | simp | simp [State.untouched, State.frame]

@[simp] theorem beginTurning_untouched (n : Nat) (l : Lay) (s : State) : (beginTurning n l s).1.untouched = s.untouched := by
  unfold beginTurning; (try dsimp only); repeat' split
  all_goals first | rfl | simp | simp [State.untouched, State.frame]

@[simp] theorem beginPushing_untouched (n : Nat) (s : State) : (beginPushing n s).1.untouched = s.untouched := by
  unfold beginPushing; (try dsimp only); repeat' split
  all_goals first | rfl | simp | simp [State.untouched, State.frame]

@[simp] theorem markBegun_untouched (s : State) (p : Phase) : (s.markBegun p).untouched = s.untouched := rfl

@[simp] theorem windBack_untouched (n : Nat) (s : State) : (windBack n s).1.untouched = s.untouched := by
  unfold windBack; (try dsimp only); repeat' split
  all_goals first | rfl | simp | simp [State.untouched, State.frame]

@[simp] theorem recordsUnknown_untouched (s : State) (k : Nat) (o : Order) : (s.recordsUnknown k o).untouched = s.untouched := by
  unfold State.recordsUnknown; (try dsimp only); repeat' split
  all_goals first | rfl | simp | simp [State.untouched, State.frame]

@[simp] theorem releaseDone_untouched (n : Nat) (s : State) : (releaseDone n s).untouched = s.untouched := by
  unfold releaseDone; (try dsimp only); repeat' split
  all_goals first | rfl | simp | simp [State.untouched, State.frame]

@[simp] theorem turnDone_untouched (n : Nat) (f : Lay → Lay) (s : State) : (turnDone n f s).untouched = s.untouched := by
  unfold turnDone; (try dsimp only); repeat' split
  all_goals first | rfl | simp | simp [State.untouched, State.frame]

@[simp] theorem pushOutDone_untouched (n : Nat) (s : State) : (pushOutDone n s).1.untouched = s.untouched := by
  unfold pushOutDone; (try dsimp only); repeat' split
  all_goals first | rfl | simp | simp [State.untouched, State.frame]

@[simp] theorem sequenceDone_untouched (k : OrderKind) (n : Nat) (b : Bool) (s : State) : (sequenceDone k n b s).1.untouched = s.untouched := by
  unfold sequenceDone; (try dsimp only); repeat' split
  all_goals first | rfl | simp | simp [State.untouched, State.frame]

@[simp] theorem sequenceEnds_untouched (k : OrderKind) (n : Nat) (b : Bool) (how : End) (s : State) : (sequenceEnds k n b how s).1.untouched = s.untouched := by
  unfold sequenceEnds; (try dsimp only); repeat' split
  all_goals first | rfl | simp | simp [State.untouched, State.frame]


/-! ### Cell Control -/

@[simp] theorem detachCell_untouched (s : State) : (s.detachCell).untouched = s.untouched := by
  unfold State.detachCell; (try dsimp only); repeat' split
  all_goals first | rfl | simp | simp [State.untouched, State.frame]

@[simp] theorem enterState_untouched (st : CellState) (s : State) : (enterState st s).1.untouched = s.untouched := by
  unfold enterState; (try dsimp only); repeat' split
  all_goals first | rfl | simp | simp [State.untouched, State.frame]

@[simp] theorem startFails_untouched (s : State) : (startFails s).1.untouched = s.untouched := by
  unfold startFails; (try dsimp only); repeat' split
  all_goals first | rfl | simp | simp [State.untouched, State.frame]

@[simp] theorem stopAsked_untouched (s : State) : (stopAsked s).1.untouched = s.untouched := by
  unfold stopAsked; (try dsimp only); repeat' split
  all_goals first | rfl | simp | simp [State.untouched, State.frame]

@[simp] theorem haltLay_untouched (s : State) : (haltLay s).untouched = s.untouched := by
  unfold haltLay; (try dsimp only); repeat' split
  all_goals first | rfl | simp | simp [State.untouched, State.frame]

@[simp] theorem haltTable_untouched (s : State) : (haltTable s).1.untouched = s.untouched := by
  unfold haltTable; (try dsimp only); repeat' split
  all_goals first | rfl | simp | simp [State.untouched, State.frame]

@[simp] theorem haltDrop_untouched (s : State) : (haltDrop s).1.untouched = s.untouched := by
  unfold haltDrop; (try dsimp only); repeat' split
  all_goals first | rfl | simp | simp [State.untouched, State.frame]

@[simp] theorem haltStop_untouched (s : State) : (haltStop s).1.untouched = s.untouched := by
  unfold haltStop; (try dsimp only); repeat' split
  all_goals first | rfl | simp | simp [State.untouched, State.frame]

@[simp] theorem wakeTest_untouched (s : State) : (wakeTest s).1.untouched = s.untouched := by
  unfold wakeTest; (try dsimp only); repeat' split
  all_goals first | rfl | simp | simp [State.untouched, State.frame]

@[simp] theorem parkTest_untouched (s : State) : (parkTest s).1.untouched = s.untouched := by
  unfold parkTest; (try dsimp only); repeat' split
  all_goals first | rfl | simp | simp [State.untouched, State.frame]

@[simp] theorem startLockWait_untouched (s : State) : (s.startLockWait).untouched = s.untouched := by
  unfold State.startLockWait; (try dsimp only); repeat' split
  all_goals first | rfl | simp | simp [State.untouched, State.frame]

@[simp] theorem settled_untouched (s : State) : (Machine.settled s).1.untouched = s.untouched := by
  unfold settled; (try dsimp only); repeat' split
  all_goals first | rfl | simp | simp [State.untouched, State.frame]

@[simp] theorem cellEnds_untouched (tag : Option Nat) (how : End) (s : State) : (cellEnds tag how s).1.untouched = s.untouched := by
  unfold cellEnds; (try dsimp only); repeat' split
  all_goals first | rfl | simp | simp [State.untouched, State.frame]


/-! ### Ends and posts -/

@[simp] theorem directEnds_untouched (k : Nat) (tag : Byte) (how : End) (s : State) : (directEnds k tag how s).untouched = s.untouched := by
  unfold directEnds; (try dsimp only); repeat' split
  all_goals first | rfl | simp | simp [State.untouched, State.frame]

@[simp] theorem takeCopy_untouched (c : Copy) (s : State) : (takeCopy c s).1.untouched = s.untouched := by
  unfold takeCopy; (try dsimp only); repeat' split
  all_goals first | rfl | simp | simp [State.untouched, State.frame]

@[simp] theorem orderEnded_untouched (k : Nat) (tag : Option Nat) (o : Order) (how : End) (s : State) : (orderEnded k tag o how s).1.untouched = s.untouched := by
  unfold orderEnded; (try dsimp only); repeat' split
  all_goals first | rfl | simp | simp [State.untouched, State.frame]

@[simp] theorem endFor_untouched (k : Nat) (tag : Option Nat) (kind : OrderKind) (src : Source) (how : End) (s : State) : (endFor k tag kind src how s).1.untouched = s.untouched := by
  unfold endFor; (try dsimp only); repeat' split
  all_goals first | rfl | simp | simp [State.untouched, State.frame]

@[simp] theorem writeSlot_untouched (k : Nat) (c : Option SlotConfig) (s : State) : (writeSlot k c s).1.untouched = s.untouched := by
  unfold writeSlot; (try dsimp only); repeat' split
  all_goals first | rfl | simp | simp [State.untouched, State.frame]


/-! ### What waits for a condition -/

theorem beginPhase_untouched {n : Nat} {l : Lay} {p : Phase} {s : State} {e : Effect} (h : beginPhase n l p s = some e) :
    e.1.untouched = s.untouched := by
  unfold beginPhase at h; split at h <;> simp at h <;> subst h <;> simp

theorem stoppingPhase_untouched {n : Nat} {l : Lay} {p : Phase} {s : State} {e : Effect} (h : stoppingPhase n l p s = some e) :
    e.1.untouched = s.untouched := by
  unfold stoppingPhase at h; (repeat' split at h) <;> first
    | exact beginPhase_untouched h
    | (simp at h; subst h; simp)
    | simp at h

theorem boundaryRule_untouched {s : State} {e : Effect} (h : boundaryRule s = some e) : e.1.untouched = s.untouched := by
  simp only [boundaryRule, Option.map_eq_some_iff] at h
  obtain ⟨n, -, rfl⟩ := h
  split <;> simp

theorem fillRule_untouched {s : State} {e : Effect} (h : fillRule s = some e) : e.1.untouched = s.untouched := by
  unfold fillRule at h; (try dsimp only at h); (repeat' split at h) <;> first
    | (simp at h; done)
    | (simp at h; subst h; first | rfl | simp | simp [State.untouched, State.frame])

theorem lowerRule_untouched {s : State} {e : Effect} (h : lowerRule s = some e) : e.1.untouched = s.untouched := by
  unfold lowerRule at h; (try dsimp only at h); (repeat' split at h) <;> first
    | (simp at h; done)
    | (simp at h; subst h; first | rfl | simp | simp [State.untouched, State.frame])

theorem jogRule_untouched {s : State} {e : Effect} (h : jogRule s = some e) : e.1.untouched = s.untouched := by
  unfold jogRule at h; (try dsimp only at h); (repeat' split at h) <;> first
    | (simp at h; done)
    | (simp at h; subst h; first | rfl | simp | simp [State.untouched, State.frame])

theorem begunRule_untouched {s : State} {e : Effect} (h : begunRule s = some e) : e.1.untouched = s.untouched := by
  unfold begunRule at h; split at h
  · simp only [Option.some.injEq] at h; subst h; rfl
  · simp at h

theorem phaseRule_untouched {s : State} {e : Effect} (h : phaseRule s = some e) : e.1.untouched = s.untouched := by
  unfold phaseRule at h
  split at h
  · simp at h
  · split at h
    · simp at h
    · split at h
      · simp only [Option.bind_eq_some_iff] at h
        obtain ⟨p, -, h⟩ := h
        split at h
        · exact (beginPhase_untouched h).trans (markBegun_untouched s p)
        · split at h
          · exact stoppingPhase_untouched h
          · simp at h
      · simp at h

theorem stepRule_untouched {s : State} {e : Effect} (h : stepRule s = some e) : e.1.untouched = s.untouched := by
  unfold stepRule at h; (try dsimp only at h); (repeat' split at h) <;> first
    | (simp at h; done)
    | (simp at h; subst h; first | rfl | simp | simp [State.untouched, State.frame])

theorem deliverRule_untouched {s : State} {e : Effect} (h : deliverRule s = some e) : e.1.untouched = s.untouched := by
  unfold deliverRule at h; (try dsimp only at h); (repeat' split at h) <;> first
    | (simp at h; done)
    | (simp at h; subst h; first | rfl | simp | simp [State.untouched, State.frame])

theorem presentRule_untouched {s : State} {e : Effect} (h : presentRule s = some e) : e.1.untouched = s.untouched := by
  unfold presentRule at h; (try dsimp only at h); (repeat' split at h) <;> first
    | (simp at h; done)
    | (simp at h; subst h; first | rfl | simp | simp [State.untouched, State.frame])

theorem permitOrGrantRule_untouched {s : State} {e : Effect} (h : permitOrGrantRule s = some e) : e.1.untouched = s.untouched := by
  unfold permitOrGrantRule at h; (try dsimp only at h); (repeat' split at h) <;> first
    | (simp at h; done)
    | (simp at h; subst h; first | rfl | simp | simp [State.untouched, State.frame])

theorem cellRule_untouched {s : State} {e : Effect} (h : cellRule s = some e) : e.1.untouched = s.untouched := by
  unfold cellRule at h; (try dsimp only at h); (repeat' split at h) <;> first
    | (simp at h; done)
    | (simp at h; subst h; first | rfl | simp | simp [State.untouched, State.frame])

theorem idleRule_untouched {s : State} {e : Effect} (h : idleRule s = some e) : e.1.untouched = s.untouched := by
  unfold idleRule at h; (try dsimp only at h); (repeat' split at h) <;> first
    | (simp at h; done)
    | (simp at h; subst h; first | rfl | simp | simp [State.untouched, State.frame])

theorem lampRule_untouched {s : State} {e : Effect} (h : lampRule s = some e) : e.1.untouched = s.untouched := by
  unfold lampRule at h; (try dsimp only at h); (repeat' split at h) <;> first
    | (simp at h; done)
    | (simp at h; subst h; first | rfl | simp | simp [State.untouched, State.frame])

theorem sendReady_untouched {s s' : State} {k : Nat} (h : s.sendReady k = some s') : s'.untouched = s.untouched := by
  unfold State.sendReady at h; dsimp only at h; (repeat' split at h) <;> simp at h <;> subst h <;> simp

theorem slotSend_untouched {s s' : State} {k : Nat} (h : s.slotSend k = some s') : s'.untouched = s.untouched := by
  unfold State.slotSend at h
  dsimp only at h
  split at h
  · simp at h
  · split at h
    · exact sendReady_untouched h
    · simp at h; subst h; simp
    · simp only [Option.map_eq_some_iff] at h
      obtain ⟨v, -, rfl⟩ := h
      simp
    · simp at h
    · simp at h

theorem sendRule_untouched {s : State} {e : Effect} (h : sendRule s = some e) : e.1.untouched = s.untouched := by
  simp only [sendRule, Option.map_eq_some_iff] at h
  obtain ⟨s', h, rfl⟩ := h
  obtain ⟨k, -, h⟩ := List.exists_of_findSome?_eq_some h
  exact slotSend_untouched h

/-- What a rule that applies does, by what each rule does. -/
theorem settleRules_induction {P : State → Prop} {s : State} {e : Effect}
    (h : settleRules.findSome? (fun r => r s) = some e)
    (rules : ∀ r ∈ settleRules, ∀ e, r s = some e → P e.1) : P e.1 := by
  obtain ⟨r, hr, h⟩ := List.exists_of_findSome?_eq_some h
  exact rules r hr e h

@[simp] theorem settle_untouched (s : State) : (settle s).1.untouched = s.untouched := by
  unfold settle
  split
  · rename_i s' tasks h
    refine settleRules_induction (P := fun t => t.untouched = s.untouched) (e := (s', tasks)) h ?_
    intro r hr e he
    simp only [settleRules, List.mem_cons, List.not_mem_nil, or_false] at hr
    rcases hr with rfl | rfl | rfl | rfl | rfl | rfl | rfl | rfl | rfl | rfl | rfl | rfl | rfl | rfl
    · exact deliverRule_untouched he
    · exact boundaryRule_untouched he
    · exact lowerRule_untouched he
    · exact fillRule_untouched he
    · exact jogRule_untouched he
    · exact begunRule_untouched he
    · exact phaseRule_untouched he
    · exact stepRule_untouched he
    · exact presentRule_untouched he
    · exact permitOrGrantRule_untouched he
    · exact cellRule_untouched he
    · exact idleRule_untouched he
    · exact lampRule_untouched he
    · exact sendRule_untouched he
  · rfl

/-! ### A whole event -/

@[simp] theorem perform_untouched (t : Task) (s : State) : (perform t s).1.untouched = s.untouched := by
  cases t <;> simp [perform]

/-- A property that every piece of work keeps is kept by the whole of an event's work. -/
theorem drainAgenda_induction {P : State → Prop} (work : ∀ t s, P s → P (perform t s).1)
    (left : ∀ s ts, P s → P { s with agenda := ts }) : ∀ n ts s, P s → P (drainAgenda n ts s) := by
  intro n
  induction n with
  | zero => intro ts s h; cases ts with
    | nil => exact h
    | cons t ts => exact left s _ h
  | succ n ih => intro ts s h; cases ts with
    | nil => exact h
    | cons t ts => exact ih _ _ (work t s h)

@[simp] theorem drainAgenda_untouched (n : Nat) (ts : List Task) (s : State) :
    (drainAgenda n ts s).untouched = s.untouched :=
  drainAgenda_induction (P := fun t => t.untouched = s.untouched) (fun t u h => by simp [h]) (fun u l h => by simp [h]) n ts s rfl

@[simp] theorem complete_untouched (e : Effect) : (complete e).untouched = e.1.untouched := by simp [complete]

@[simp] theorem takeFrame_frame (s : State) : (takeFrame s).frame = s.frame := by
  unfold takeFrame
  (repeat' split) <;> try rfl
  simp [State.frame, State.send, State.setLink, modifyKind_classes]

@[simp] theorem event_frame (prim : State → Effect) (s : State) : (event prim s).frame = (prim s).1.frame := by
  simp [event, frame_of_untouched (complete_untouched _)]

end Sys2Proof.Machine
end

