-- ==== Sys2Proof/Laws/Requests.lean ====
section
/-! SUPPORT. What the execution of a management request leaves as it stood, and how the Management Unit and the transmitter take
turns: one lemma per shared operation. -/

namespace Sys2Proof.Machine

/-! ### What an event's work leaves -/

/-- Two states with one frame agree in each of its parts. -/
theorem frame_parts {s t : State} (h : s.frame = t.frame) :
    s.pending = t.pending ∧ s.resetHeld = t.resetHeld ∧ s.mgmt = t.mgmt ∧ s.programs = t.programs ∧
      s.intake.tickets = t.intake.tickets ∧ s.cell.params = t.cell.params ∧ s.link.uLock = t.link.uLock ∧
      s.link.ringUp = t.link.ringUp ∧ s.link.uFlags = t.link.uFlags := by
  simp only [State.frame, Prod.mk.injEq] at h
  obtain ⟨h1, h2, h3, h4, h5, h6, h7, h8, h9, -⟩ := h
  exact ⟨h1, h2, h3, h4, h5, h6, h7, h8, h9⟩

theorem complete_frame (e : Effect) : (complete e).frame = e.1.frame := frame_of_untouched (complete_untouched e)

@[simp] theorem complete_pending (e : Effect) : (complete e).pending = e.1.pending := (frame_parts (complete_frame e)).1

@[simp] theorem complete_resetHeld (e : Effect) : (complete e).resetHeld = e.1.resetHeld := (frame_parts (complete_frame e)).2.1

@[simp] theorem complete_mgmt (e : Effect) : (complete e).mgmt = e.1.mgmt := (frame_parts (complete_frame e)).2.2.1

@[simp] theorem complete_programs (e : Effect) : (complete e).programs = e.1.programs := (frame_parts (complete_frame e)).2.2.2.1

@[simp] theorem complete_tickets (e : Effect) : (complete e).intake.tickets = e.1.intake.tickets :=
  (frame_parts (complete_frame e)).2.2.2.2.1

@[simp] theorem complete_params (e : Effect) : (complete e).cell.params = e.1.cell.params :=
  (frame_parts (complete_frame e)).2.2.2.2.2.1

@[simp] theorem complete_uLock (e : Effect) : (complete e).link.uLock = e.1.link.uLock :=
  (frame_parts (complete_frame e)).2.2.2.2.2.2.1

@[simp] theorem complete_ringUp (e : Effect) : (complete e).link.ringUp = e.1.link.ringUp :=
  (frame_parts (complete_frame e)).2.2.2.2.2.2.2.1

@[simp] theorem complete_uFlags (e : Effect) : (complete e).link.uFlags = e.1.link.uFlags :=
  (frame_parts (complete_frame e)).2.2.2.2.2.2.2.2

/-- The work of an event takes no frame from the transmitter, and no REPLY comes or goes. -/
@[simp] theorem complete_sending (e : Effect) : (complete e).link.sending = e.1.link.sending :=
  congrArg (fun u => u.2.2.2.2.1) (complete_untouched e)

theorem complete_replyWaits (e : Effect) : (complete e).replyWaits = e.1.replyWaits :=
  congrArg (fun u => u.2.2.2.2.2) (complete_untouched e)

/-! ### The transmitter -/

/-- The transmitter takes a frame from the answer list, the owed notices or the copy queue, and touches nothing else. -/
theorem takeFrame_touches (s : State) : ∃ u e, takeFrame s = { s with link := u, events := e } ∧ u.uLock = s.link.uLock ∧
    u.ringUp = s.link.ringUp ∧ u.uFlags = s.link.uFlags ∧ u.sFlags = s.link.sFlags ∧ u.uStats = s.link.uStats ∧
    u.sStats = s.link.sStats ∧ u.leaving = s.link.leaving ∧ u.output = s.link.output ∧ e.haltCause = s.events.haltCause ∧
    e.deferred = s.events.deferred := by
  unfold takeFrame
  repeat' split
  all_goals exact ⟨_, _, rfl, rfl, rfl, rfl, rfl, rfl, rfl, rfl, rfl, rfl, rfl⟩

@[simp] theorem takeFrame_pending (s : State) : (takeFrame s).pending = s.pending := by
  obtain ⟨u, e, h, -⟩ := takeFrame_touches s; rw [h]

@[simp] theorem takeFrame_resetHeld (s : State) : (takeFrame s).resetHeld = s.resetHeld := by
  obtain ⟨u, e, h, -⟩ := takeFrame_touches s; rw [h]

@[simp] theorem takeFrame_mgmt (s : State) : (takeFrame s).mgmt = s.mgmt := by
  obtain ⟨u, e, h, -⟩ := takeFrame_touches s; rw [h]

@[simp] theorem takeFrame_intake (s : State) : (takeFrame s).intake = s.intake := by
  obtain ⟨u, e, h, -⟩ := takeFrame_touches s; rw [h]

@[simp] theorem takeFrame_programs (s : State) : (takeFrame s).programs = s.programs := by
  obtain ⟨u, e, h, -⟩ := takeFrame_touches s; rw [h]

@[simp] theorem takeFrame_lays (s : State) : (takeFrame s).lays = s.lays := by
  obtain ⟨u, e, h, -⟩ := takeFrame_touches s; rw [h]

@[simp] theorem takeFrame_order (s : State) : (takeFrame s).order = s.order := by
  obtain ⟨u, e, h, -⟩ := takeFrame_touches s; rw [h]

@[simp] theorem takeFrame_zones (s : State) : (takeFrame s).zones = s.zones := by
  obtain ⟨u, e, h, -⟩ := takeFrame_touches s; rw [h]

@[simp] theorem takeFrame_seq (s : State) : (takeFrame s).seq = s.seq := by
  obtain ⟨u, e, h, -⟩ := takeFrame_touches s; rw [h]

@[simp] theorem takeFrame_gate (s : State) : (takeFrame s).gate = s.gate := by
  obtain ⟨u, e, h, -⟩ := takeFrame_touches s; rw [h]

@[simp] theorem takeFrame_slots (s : State) : (takeFrame s).slots = s.slots := by
  obtain ⟨u, e, h, -⟩ := takeFrame_touches s; rw [h]

@[simp] theorem takeFrame_delivery (s : State) : (takeFrame s).delivery = s.delivery := by
  obtain ⟨u, e, h, -⟩ := takeFrame_touches s; rw [h]

@[simp] theorem takeFrame_cell (s : State) : (takeFrame s).cell = s.cell := by
  obtain ⟨u, e, h, -⟩ := takeFrame_touches s; rw [h]

@[simp] theorem takeFrame_agenda (s : State) : (takeFrame s).agenda = s.agenda := by
  obtain ⟨u, e, h, -⟩ := takeFrame_touches s; rw [h]

@[simp] theorem takeFrame_uLock (s : State) : (takeFrame s).link.uLock = s.link.uLock := by
  obtain ⟨u, e, h, hu, -⟩ := takeFrame_touches s; rw [h]; exact hu

@[simp] theorem takeFrame_ringUp (s : State) : (takeFrame s).link.ringUp = s.link.ringUp := by
  obtain ⟨u, e, h, -, hu, -⟩ := takeFrame_touches s; rw [h]; exact hu

theorem takeFrame_busy {s : State} (h : s.link.sending.isSome = true) : takeFrame s = s := by simp [takeFrame, h]

/-! ### A request's execution -/

/-- What every request leaves as it stood: the queue of commands, the reset pin, the management queue, the lock, the ring and the frame
being sent. -/
def State.requestFrame (s : State) := (s.pending, s.resetHeld, s.mgmt, s.link.uLock, s.link.ringUp, s.link.sending)

theorem requestFrame_of_untouched {s t : State} (h : s.untouched = t.untouched) : s.requestFrame = t.requestFrame := by
  obtain ⟨h1, h2, h3, -, -, -, h7, h8, -⟩ := frame_parts (frame_of_untouched h)
  have h9 : s.link.sending = t.link.sending := congrArg (fun u => u.2.2.2.2.1) h
  simp [State.requestFrame, *]

@[simp] theorem complete_requestFrame (e : Effect) : (complete e).requestFrame = e.1.requestFrame :=
  requestFrame_of_untouched (complete_untouched e)

@[simp] theorem accept_requestFrame (e : Effect) : (accept e).state.requestFrame = e.1.requestFrame := by simp [accept]

@[simp] theorem refuse_requestFrame (r : Result) (s : State) : (refuse r s).state.requestFrame = s.requestFrame := rfl

@[simp] theorem reading_requestFrame (s : State) (b : List Byte) : (reading s b).state.requestFrame = s.requestFrame := rfl

@[simp] theorem readView_requestFrame (view : Byte) (arg : BitVec 16) (clear : Bool) (s : State) :
    (readView view arg clear s).state.requestFrame = s.requestFrame := by
  unfold readView; dsimp only; repeat' split
  all_goals rfl

@[simp] theorem doLoadCell_requestFrame (c : CellLoad) (s : State) : (doLoadCell c s).state.requestFrame = s.requestFrame := by
  unfold doLoadCell; dsimp only; repeat' split
  all_goals first | rfl | simp [accept, State.requestFrame]

@[simp] theorem withdraw_requestFrame (s : State) (k : Nat) (ts : List Nat) : (s.withdraw k ts).requestFrame = s.requestFrame := rfl

@[simp] theorem loadSlot_requestFrame (k : Nat) (c : Option SlotConfig) (s : State) :
    (loadSlot k c s).1.requestFrame = s.requestFrame := by simp [loadSlot, State.requestFrame, State.withdraw]

@[simp] theorem doLoadSlot_requestFrame (slot : Byte) (c : Option SlotLoad) (s : State) :
    (doLoadSlot slot c s).state.requestFrame = s.requestFrame := by
  unfold doLoadSlot; dsimp only; repeat' split
  all_goals first | rfl | simp

@[simp] theorem doLoadSeverity_requestFrame (kind : Byte) (cls : Option Byte) (notice : Option Bool) (s : State) :
    (doLoadSeverity kind cls notice s).state.requestFrame = s.requestFrame := by
  unfold doLoadSeverity; dsimp only; repeat' split
  all_goals first | rfl | simp [accept, State.requestFrame]

@[simp] theorem doLoadProgram_requestFrame (p : Byte) (steps : List RawStep) (s : State) :
    (doLoadProgram p steps s).state.requestFrame = s.requestFrame := by
  unfold doLoadProgram; dsimp only; repeat' split
  all_goals first | rfl | simp [accept, State.requestFrame]

@[simp] theorem doEraseProgram_requestFrame (p : Byte) (s : State) : (doEraseProgram p s).state.requestFrame = s.requestFrame := by
  unfold doEraseProgram; dsimp only; repeat' split
  all_goals first | rfl | simp [accept, State.requestFrame]

@[simp] theorem doLoadJob_requestFrame (j : JobLoad) (s : State) : (doLoadJob j s).state.requestFrame = s.requestFrame := by
  unfold doLoadJob; repeat' split
  all_goals first | rfl | simp [accept, State.requestFrame]

@[simp] theorem doDropJob_requestFrame (j : BitVec 16) (s : State) : (doDropJob j s).state.requestFrame = s.requestFrame := by
  unfold doDropJob; dsimp only; repeat' split
  all_goals first | rfl | simp [accept, State.requestFrame]

@[simp] theorem probe_requestFrame (s : State) (p : Slot → Bool) : (s.probe p).requestFrame = s.requestFrame := by
  unfold State.probe; split <;> rfl

@[simp] theorem cellReset_requestFrame (s : State) : (cellReset s).requestFrame = s.requestFrame := rfl

@[simp] theorem cellControl_requestFrame (a : Byte) (s : State) : (cellControl a s).state.requestFrame = s.requestFrame := by
  unfold cellControl doProbe doStart doStop doAckHalt doRetrain doResetWear doCellReset
  dsimp only
  repeat' split
  all_goals first
    | rfl
    | (simp only [accept_requestFrame, probe_requestFrame, cellReset_requestFrame]; done)
    | (simp only [accept_requestFrame]; rfl)

@[simp] theorem updateLay_requestFrame (s : State) (n : Nat) (f : Lay → Lay) : (s.updateLay n f).requestFrame = s.requestFrame := by
  simp [State.requestFrame]

@[simp] theorem hold_requestFrame (s : State) (n : Nat) (c : HoldCause) : (s.hold n c).requestFrame = s.requestFrame := by
  simp [State.hold]

@[simp] theorem takeAbandon_requestFrame (n : Nat) (s : State) : (takeAbandon n s).1.requestFrame = s.requestFrame :=
  requestFrame_of_untouched (takeAbandon_untouched n s)

@[simp] theorem startAbandon_requestFrame (n : Nat) (l : Lay) (s : State) : (startAbandon n l s).1.requestFrame = s.requestFrame := by
  unfold startAbandon; repeat' split
  all_goals first | rfl | simp

@[simp] theorem startRelease_requestFrame (n : Nat) (l : Lay) (s : State) : (startRelease n l s).1.requestFrame = s.requestFrame := by
  unfold startRelease; split <;> rfl

@[simp] theorem layControl_requestFrame (lay action : Byte) (s : State) :
    (layControl lay action s).state.requestFrame = s.requestFrame := by
  unfold layControl doHold doRelease doAbandon
  dsimp only
  repeat' split
  all_goals first | rfl | simp

theorem finishQueued_requestFrame (s : State) : s.finishQueued.requestFrame = s.requestFrame := by
  unfold State.finishQueued; dsimp only; repeat' split
  all_goals rfl

@[simp] theorem doTakeDelivery_requestFrame (s : State) : (doTakeDelivery s).state.requestFrame = s.requestFrame := by
  unfold doTakeDelivery; split
  · rfl
  · simp [finishQueued_requestFrame]; rfl

@[simp] theorem doClearEvents_requestFrame (f c : BitVec 32) (s : State) : (doClearEvents f c s).state.requestFrame = s.requestFrame := by
  unfold doClearEvents; simp [accept, State.requestFrame]

/-- No request touches the queue of commands, the reset pin, the management queue, the lock or the ring. -/
@[simp] theorem answerOf_requestFrame (payload : List Byte) (s : State) :
    (answerOf payload s).state.requestFrame = s.requestFrame := by
  unfold answerOf carryOut
  repeat' split
  all_goals first | rfl | simp

theorem answerOf_mgmt (payload : List Byte) (s : State) : (answerOf payload s).state.mgmt = s.mgmt :=
  congrArg (fun f => f.2.2.1) (answerOf_requestFrame payload s)

@[simp] theorem executeHead_requestFrame (e : MgmtEntry) (s : State) : (executeHead e s).requestFrame = s.requestFrame := by
  have h := answerOf_requestFrame e.payload s
  simp only [State.requestFrame, Prod.mk.injEq] at h ⊢
  simpa [executeHead] using h

/-! ### Turns of the Management Unit and the transmitter (R187) -/

theorem pump_idle {s : State} (n : Nat) (h : s.mgmt = []) : pump n s = s := by cases n <;> simp [pump, h]

theorem pump_waits {s : State} (n : Nat) (h : s.replyWaits = true) : pump n s = s := by
  cases n with
  | zero => rfl
  | succ n => unfold pump; split <;> simp [h]

/-- One request behind which none stands is executed and answered. -/
theorem pump_one {s : State} (n : Nat) {e : MgmtEntry} (h : s.mgmt = [e]) (hr : s.replyWaits = false) :
    pump (n + 1) s = takeFrame (executeHead e { s with mgmt := [] }) := by
  have hm : (takeFrame (executeHead e { s with mgmt := [] })).mgmt = [] := by
    rw [takeFrame_mgmt]
    exact congrArg (fun f => f.2.2.1) (executeHead_requestFrame e { s with mgmt := [] })
  unfold pump
  simp only [h, hr]
  simpa using pump_idle n hm

/-- A request just executed has its REPLY in the answer list. -/
theorem executeHead_replyWaits (e : MgmtEntry) (s : State) : (executeHead e s).replyWaits = true := by
  simp [executeHead, State.replyWaits, State.answer, State.setLink, replyFrame]

/-- Where the transmitter takes the only REPLY that waits, it is sending. -/
theorem takeFrame_tookReply {s : State} (h : s.replyWaits = true) (hv : (takeFrame s).replyWaits = false) :
    (takeFrame s).link.sending.isSome = true := by
  unfold takeFrame at hv ⊢
  split at hv <;> rename_i hb
  · rw [h] at hv; simp at hv
  · rw [if_neg hb]
    split at hv
    · rfl
    · rename_i ha
      simp [State.replyWaits, ha] at h

/-- The head request is executed; the next waits while its REPLY does. -/
theorem pump_head {s : State} (n : Nat) {e : MgmtEntry} {rest : List MgmtEntry} (h : s.mgmt = e :: rest) (hr : s.replyWaits = false)
    (hv : rest = [] ∨ (takeFrame (executeHead e { s with mgmt := rest })).replyWaits = true) :
    pump (n + 1) s = takeFrame (executeHead e { s with mgmt := rest }) := by
  rcases hv with rfl | hv
  · exact pump_one n h hr
  · unfold pump
    simp only [h, hr]
    simpa using pump_waits n hv

/-- A request executed while the transmitter sends: its REPLY waits. -/
theorem executeHead_second {v : State} {e : MgmtEntry} {rest : List MgmtEntry} (h : v.link.sending.isSome = true) :
    (takeFrame (executeHead e { v with mgmt := rest })).replyWaits = true := by
  have hs : (executeHead e { v with mgmt := rest }).link.sending.isSome = true := by
    have := congrArg (fun f => f.2.2.2.2.2) (executeHead_requestFrame e { v with mgmt := rest })
    simp only [State.requestFrame] at this
    rw [this]; exact h
  rw [takeFrame_busy hs]
  exact executeHead_replyWaits _ _

/-- Where the transmitter takes the head request's REPLY at once, the next request is executed too, and no third: its REPLY waits. -/
theorem pump_two {s : State} (n : Nat) {e e' : MgmtEntry} {rest : List MgmtEntry} (h : s.mgmt = e :: e' :: rest)
    (hr : s.replyWaits = false) (hv : (takeFrame (executeHead e { s with mgmt := e' :: rest })).replyWaits = false) :
    pump (n + 2) s =
      takeFrame (executeHead e' { takeFrame (executeHead e { s with mgmt := e' :: rest }) with mgmt := rest }) := by
  have hb := takeFrame_tookReply (executeHead_replyWaits _ _) hv
  have hm : (takeFrame (executeHead e { s with mgmt := e' :: rest })).mgmt = e' :: rest := by
    rw [takeFrame_mgmt]
    exact congrArg (fun f => f.2.2.1) (executeHead_requestFrame e { s with mgmt := e' :: rest })
  have hp : pump (n + 2) s = pump (n + 1) (takeFrame (executeHead e { s with mgmt := e' :: rest })) := by
    rw [pump]; simp [h, hr]
  rw [hp]
  exact pump_head n hm hv (Or.inr (executeHead_second hb))

/-- The Management Unit touches neither the queue of commands nor the reset pin, the lock or the ring. -/
theorem pump_keeps (n : Nat) (s : State) : (pump n s).pending = s.pending ∧ (pump n s).resetHeld = s.resetHeld ∧
    (pump n s).link.uLock = s.link.uLock ∧ (pump n s).link.ringUp = s.link.ringUp := by
  induction n generalizing s with
  | zero => exact ⟨rfl, rfl, rfl, rfl⟩
  | succ n ih =>
    unfold pump
    split
    · exact ⟨rfl, rfl, rfl, rfl⟩
    · rename_i e rest hm
      split
      · exact ⟨rfl, rfl, rfl, rfl⟩
      · have h := ih (takeFrame (executeHead e { s with mgmt := rest }))
        have k := executeHead_requestFrame e { s with mgmt := rest }
        simp only [State.requestFrame, Prod.mk.injEq] at k
        obtain ⟨k1, k2, -, k4, k5⟩ := k
        simpa [k1, k2, k4, k5] using h

theorem pumpAll_keeps (s : State) : (pumpAll s).pending = s.pending ∧ (pumpAll s).resetHeld = s.resetHeld ∧
    (pumpAll s).link.uLock = s.link.uLock ∧ (pumpAll s).link.ringUp = s.link.ringUp := by
  simpa [pumpAll] using pump_keeps 8 (takeFrame s)

end Sys2Proof.Machine
end

