-- ==== Sys2Proof/Laws/Commands.lean ====
section
/-! SUPPORT. How a command reaches its effect: a report that a slot hears, a request that is executed in its arrival event, and what no
command touches. -/

namespace Sys2Proof.Machine

theorem unlessReset_free {f : State → State} {s : State} (h : s.resetHeld = false) : unlessReset f s = f s := by simp [unlessReset, h]

theorem unlessReset_held {f : State → State} {s : State} (h : s.resetHeld = true) : unlessReset f s = s := by simp [unlessReset, h]

/-! ### Reports -/

theorem isKind_eq (x : Slot) (k : StationKind) : x.isKind k = decide (x.kind? = some k) := by
  unfold Slot.isKind Slot.kind?; cases x.config <;> simp

@[simp] theorem strokeBegins_untouched (k tag : Nat) (s : State) : (strokeBegins k tag s).1.untouched = s.untouched := by
  unfold strokeBegins; dsimp only; repeat' split
  all_goals first | rfl | simp

/-- No report's own effect touches the frame. -/
@[simp] theorem handReport_untouched (k : Nat) (tag : Byte) (r : Report) (s : State) :
    (handReport k tag r s).1.untouched = s.untouched := by
  cases r <;> simp only [handReport, takeIdentAns, takeDone, takeRefused, takePos, takeStrokeBegin, takeFault, takeButton, takePresence,
    takeGuardState, State.loseSlot] <;> (repeat' split) <;> first | rfl | simp

/-- A report that reaches a slot: it is counted, the slot takes it, and the copy is made after. -/
theorem exec_report {s : State} {node k : Nat} (h : s.hears node k) (tag : Byte) (r : Report) :
    exec (r.command node tag) s = .next (takeFrame (complete ((handReport k tag r s.reported).1,
      (handReport k tag r s.reported).2 ++ s.copyWork k node tag r))) := by
  obtain ⟨h1, h2, h3, h4⟩ := h
  have ha : reportArrives node tag r s = event (routeReport node tag r) s := by
    simp [reportArrives, unlessReset, h1, h2, within, h3]
  have hr : routeReport node tag r s = ((handReport k tag r s.reported).1, (handReport k tag r s.reported).2 ++
      s.copyWork k node tag r) := by
    simp only [routeReport, h4]; rfl
  cases r <;> simp only [Report.command, exec, execIdentAns, execDone, execRefused, execPos, execStrokeBegin, execFault, execButton,
    execPresence, execGuardState, ha, event, hr]

/-! ### Requests -/

theorem takeFrame_setMgmt (s : State) (m : List MgmtEntry) : takeFrame { s with mgmt := m } = { takeFrame s with mgmt := m } := by
  unfold takeFrame
  simp only [State.setLink, State.send]
  repeat' split
  all_goals rfl

theorem takeFrame_replyWaits {s : State} (h : s.replyWaits = false) : (takeFrame s).replyWaits = false := by
  unfold takeFrame
  simp only [State.setLink, State.send]
  repeat' split
  all_goals first | exact h | simp_all [State.replyWaits]

/-- The transmitter changes nothing but the links and the owed notices. -/
theorem takeFrame_sameButLinks (s : State) : s.sameButLinks (takeFrame s) := by
  unfold takeFrame
  repeat' split
  all_goals try exact ⟨rfl, rfl, rfl, rfl⟩
  refine ⟨rfl, ?_, rfl, rfl⟩
  apply map_set_same
  intro b hb
  simp [EventUnit.kindAt, hb]

theorem sameButLinks_trans {s t u : State} (h : s.sameButLinks t) (k : t.sameButLinks u) : s.sameButLinks u := by
  obtain ⟨h1, h2, h3, h4⟩ := h
  obtain ⟨k1, k2, k3, k4⟩ := k
  refine ⟨?_, k2.trans h2, k3.trans h3, k4.trans h4⟩
  cases s; cases t; cases u
  simp only [State.mk.injEq] at h1 k1 ⊢
  simp [h1, k1]

theorem mgmt_arrives {s : State} {tag : Byte} {payload : List Byte} (h1 : 1 ≤ payload.length) (h2 : payload.length ≤ 240)
    (h : s.listens) : frameArrives .u (mgmtFrame tag payload) s = pumpAll (queueRequest tag payload s) := by
  have h3 : payload ≠ [] := by rintro rfl; simp at h1
  simp [frameArrives, unlessReset_free h.1, mgmtFrame, h3, Nat.not_lt.mpr h2, State.receives, h.2, mgmtArrives]

/-- A MGMT frame that arrives where no request and no REPLY waits is executed and answered in its arrival event. -/
theorem mgmt_executed {s : State} {tag : Byte} {payload : List Byte} (h1 : 1 ≤ payload.length) (h2 : payload.length ≤ 240)
    (h : s.awaitsRequest) :
    frameArrives .u (mgmtFrame tag payload) s = takeFrame (((answerOf payload s.taking).state).answer
      (replyFrame tag payload (answerOf payload s.taking).result (answerOf payload s.taking).body)) := by
  obtain ⟨a, b, c, d⟩ := h
  rw [mgmt_arrives h1 h2 ⟨a, b⟩]
  have hq : takeFrame (queueRequest tag payload s) = { s.taking with mgmt := [⟨tag, payload⟩] } := by
    have hm : (s.goodFrame .u).mgmt = [] := c
    have : queueRequest tag payload s = { s with mgmt := [⟨tag, payload⟩], link := { s.link with uStats := { s.link.uStats with
        good := bump32 s.link.uStats.good, requests := bump32 s.link.uStats.requests } } } := by
      simp only [queueRequest, hm]; rfl
    rw [this]
    exact takeFrame_setMgmt { s with link := { s.link with uStats := { s.link.uStats with
      good := bump32 s.link.uStats.good, requests := bump32 s.link.uStats.requests } } } _
  unfold pumpAll
  rw [hq, pump_one 7 (e := ⟨tag, payload⟩) rfl]
  · have ht : ({ ({ s.taking with mgmt := [⟨tag, payload⟩] } : State) with mgmt := [] } : State) = s.taking := by
      have : s.taking.mgmt = [] := by simp [State.taking, c]
      cases hh : s.taking; simp_all
    rw [ht]; rfl
  · have : s.taking.replyWaits = false := takeFrame_replyWaits d
    exact this

/-- A request row, where the request is read from its payload as it was written. -/
theorem request_arrives {s : State} (tag : Byte) (r : Request) (h2 : (encodeRequest r).length ≤ 240) (h : s.awaitsRequest)
    (hp : parseRequest (encodeRequest r) = some r) :
    requestArrives tag r s = .next
      ((carryOut r s.taking).state.answered tag r (carryOut r s.taking).result (carryOut r s.taking).body) := by
  unfold requestArrives
  rw [mgmt_executed (by simp [encodeRequest]) h2 h]
  simp [answerOf, hp, State.answered]

/-! ### The state a request is executed in -/

@[simp] theorem taking_pending (s : State) : s.taking.pending = s.pending := by simp [State.taking]

@[simp] theorem taking_resetHeld (s : State) : s.taking.resetHeld = s.resetHeld := by simp [State.taking]

@[simp] theorem taking_mgmt (s : State) : s.taking.mgmt = s.mgmt := by simp [State.taking]

@[simp] theorem taking_intake (s : State) : s.taking.intake = s.intake := by simp [State.taking]

@[simp] theorem taking_programs (s : State) : s.taking.programs = s.programs := by simp [State.taking]

@[simp] theorem taking_lays (s : State) : s.taking.lays = s.lays := by simp [State.taking]

@[simp] theorem taking_order (s : State) : s.taking.order = s.order := by simp [State.taking]

@[simp] theorem taking_zones (s : State) : s.taking.zones = s.zones := by simp [State.taking]

@[simp] theorem taking_seq (s : State) : s.taking.seq = s.seq := by simp [State.taking]

@[simp] theorem taking_gate (s : State) : s.taking.gate = s.gate := by simp [State.taking]

@[simp] theorem taking_slots (s : State) : s.taking.slots = s.slots := by simp [State.taking]

@[simp] theorem taking_delivery (s : State) : s.taking.delivery = s.delivery := by simp [State.taking]

@[simp] theorem taking_cell (s : State) : s.taking.cell = s.cell := by simp [State.taking]

@[simp] theorem taking_agenda (s : State) : s.taking.agenda = s.agenda := by simp [State.taking]

@[simp] theorem taking_uLock (s : State) : s.taking.link.uLock = s.link.uLock := by simp [State.taking]

@[simp] theorem taking_ringUp (s : State) : s.taking.link.ringUp = s.link.ringUp := by simp [State.taking]

theorem taking_lay? (s : State) (n : Nat) : s.taking.lay? n = s.lay? n := by simp [State.lay?]

theorem taking_slot (s : State) (k : Nat) : s.taking.slot k = s.slot k := by simp [State.slot]

theorem taking_job? (s : State) (j : Nat) : s.taking.job? j = s.job? j := by simp [State.job?]

theorem taking_program (s : State) (p : Nat) : s.taking.program p = s.program p := by simp [State.program]

theorem taking_working (s : State) (k : StationKind) : s.taking.working k = s.working k := by simp [State.working]

theorem taking_workingSlot (s : State) (k : StationKind) : s.taking.workingSlot k = s.workingSlot k := by
  unfold State.workingSlot; rw [taking_working]; congr 1; funext k; rw [taking_slot]

theorem taking_guardState (s : State) : s.taking.guardState = s.guardState := by
  unfold State.guardState; rw [taking_workingSlot]

theorem taking_kindsReady (s : State) : s.taking.kindsReady = s.kindsReady := by
  unfold State.kindsReady; congr 1; funext k; unfold State.kindReady; rw [taking_workingSlot]

theorem taking_zone (s : State) (z : ZoneId) : s.taking.zone z = s.zone z := by unfold State.zone; rw [taking_zones]

theorem taking_reservedFor (s : State) (n : Nat) : s.taking.reservedFor n = s.reservedFor n := by
  unfold State.reservedFor; simp only [taking_zone]

theorem taking_sizeFailureOf (s : State) (l : Lay) : s.taking.sizeFailureOf l = s.sizeFailureOf l := by
  unfold State.sizeFailureOf; simp only [taking_cell]

theorem taking_recheck (s : State) (l : Lay) : s.taking.recheck l = s.recheck l := by
  unfold State.recheck; simp only [taking_program, taking_sizeFailureOf]

/-! ### What no command touches -/

theorem event_pending {prim : State → Effect} {s : State} (h : (prim s).1.pending = s.pending) : (event prim s).pending = s.pending :=
  (frame_parts (event_frame prim s)).1.trans h

theorem pending_of_untouched {s t : State} (h : s.untouched = t.untouched) : s.pending = t.pending :=
  (frame_parts (frame_of_untouched h)).1

theorem admitTicket_pending (s : State) : (admitTicket s).1.pending = s.pending := by
  unfold admitTicket
  repeat' split
  all_goals first
    | rfl
    | (dsimp only; unfold admissionWake; split <;> exact (pending_of_untouched (searchMap_untouched _ _ _)).trans rfl)

theorem takeTicket_pending (t : Ticket) (s : State) : (takeTicket t s).1.pending = s.pending := by
  unfold takeTicket; dsimp only
  repeat' split
  all_goals first | rfl | exact admitTicket_pending _

theorem rejectFrame_pending (port : Port) (check : Nat) (flag : Option RxFlag) (s : State) :
    (rejectFrame port check flag s).1.pending = s.pending := by
  unfold rejectFrame State.markFlag State.countFailure; cases port <;> dsimp only <;> (repeat' split) <;> rfl

theorem takeDirect_pending (node : Nat) (tag : Byte) (o : OrderKind) (s : State) : (takeDirect node tag o s).1.pending = s.pending := by
  unfold takeDirect; dsimp only
  repeat' split
  all_goals first | rfl | (unfold State.directRecords; dsimp only; repeat' split) <;> rfl

theorem queueRequest_pending (tag : Byte) (payload : List Byte) (s : State) : (queueRequest tag payload s).pending = s.pending := by
  unfold queueRequest; dsimp only
  repeat' split
  · rfl
  · exact event_pending rfl

theorem reportArrives_pending (node : Nat) (tag : Byte) (r : Report) (s : State) : (reportArrives node tag r s).pending = s.pending := by
  unfold reportArrives unlessReset; dsimp only
  repeat' split
  all_goals first
    | rfl
    | exact event_pending (rejectFrame_pending _ _ _ _)
    | skip
  refine event_pending ?_
  unfold routeReport; dsimp only
  split
  · rfl
  · exact (pending_of_untouched (handReport_untouched _ _ _ _)).trans rfl

theorem frameArrives_pending (port : Port) (r : Received) (s : State) : (frameArrives port r s).pending = s.pending := by
  unfold frameArrives unlessReset; dsimp only
  split
  · rfl
  · split
    · rfl
    · split
      · exact event_pending (rejectFrame_pending _ _ _ _)
      · exact event_pending (takeTicket_pending _ _)
      · unfold mgmtArrives unlessReset
        split
        · rfl
        · dsimp only
          split
          · rfl
          · rw [(pumpAll_keeps _).1, queueRequest_pending]
      · exact event_pending ((takeDirect_pending _ _ _ _).trans rfl)
      · exact reportArrives_pending _ _ _ _

end Sys2Proof.Machine
end

