-- ==== Sys2Proof/Laws/Lays.lean ====
section
/-! SUPPORT. Reading a lay after a change of a lay record or of another field, and several changes of one record as one. -/

namespace Sys2Proof.Machine

theorem lay?_lays {s t : State} (h : t.lays = s.lays) (n : Nat) : t.lay? n = s.lay? n := by unfold State.lay?; rw [h]

theorem lay?_lt {s : State} {n : Nat} {l : Lay} (h : s.lay? n = some l) : n < s.lays.length := by
  unfold State.lay? at h
  cases hh : s.lays[n]? with
  | none => simp [hh] at h
  | some a => exact (List.getElem?_eq_some_iff.mp hh).1

theorem lays_get {s : State} {n : Nat} (h : n < s.lays.length) : s.lays[n]? = some (s.lay? n) := by
  simp [State.lay?, List.getElem?_eq_getElem h]

/-- A changed record is the table's entry changed. -/
theorem updateLay_eq (s : State) (n : Nat) (f : Lay → Lay) : s.updateLay n f = { s with lays := s.lays.set n ((s.lay? n).map f) } := by
  unfold State.updateLay
  cases h : s.lay? n with
  | some l => rfl
  | none =>
    have hl : s.lays.set n none = s.lays := by
      apply List.ext_getElem?
      intro i
      rw [List.getElem?_set]
      split
      · subst_vars
        split
        · rename_i hi
          rw [lays_get hi, h]
        · rename_i hi
          rw [List.getElem?_eq_none (Nat.le_of_not_lt hi)]
      · rfl
    simp only [Option.map_none, hl]

theorem updateLay_some {s : State} {n : Nat} {l : Lay} (h : s.lay? n = some l) (f : Lay → Lay) :
    s.updateLay n f = s.setLay n (some (f l)) := by unfold State.updateLay; rw [h]

/-- Reading a lay after a change of one record. -/
theorem lay?_updateLay (s : State) (n : Nat) (f : Lay → Lay) (m : Nat) :
    (s.updateLay n f).lay? m = if m = n then (s.lay? m).map f else s.lay? m := by
  rw [updateLay_eq]
  unfold State.lay?
  simp only [List.getElem?_set]
  by_cases h : n = m
  · subst h
    by_cases hn : n < s.lays.length
    · simp [hn]
    · simp [hn]
  · simp [h, Ne.symm h]

theorem lay?_setLay {s : State} {n : Nat} (l : Option Lay) (h : n < s.lays.length) (m : Nat) :
    (s.setLay n l).lay? m = if m = n then l else s.lay? m := by
  unfold State.setLay State.lay?
  simp only [List.getElem?_set]
  by_cases hm : n = m
  · subst hm; simp [h]
  · simp [hm, Ne.symm hm]

/-- Two changes of one record are one change. -/
theorem updateLay_updateLay (s : State) (n : Nat) (f g : Lay → Lay) : (s.updateLay n f).updateLay n g = s.updateLay n (g ∘ f) := by
  rw [updateLay_eq (s.updateLay n f), lay?_updateLay, if_pos rfl, updateLay_eq s n f, updateLay_eq s n (g ∘ f)]
  simp [List.set_set]

theorem updateLay_setZone (s : State) (n : Nat) (f : Lay → Lay) (z : ZoneId) (v : Zone) :
    (s.updateLay n f).setZone z v = (s.setZone z v).updateLay n f := by
  rw [updateLay_eq, updateLay_eq]; rfl

theorem zone_updateLay (s : State) (n : Nat) (f : Lay → Lay) (z : ZoneId) : (s.updateLay n f).zone z = s.zone z := by
  rw [updateLay_eq]; rfl

end Sys2Proof.Machine
end

