-- ==== Sys2Proof/Laws/Good.lean ====
section
/-! SUPPORT. The clauses of the invariant that an event's work touches (State.Good), and one lemma per operation that says it keeps
them, up to a whole event. -/

namespace Sys2Proof.Machine

/-- A slot's posted queue is bounded and its record is sound. -/
def Slot.ok (x : Slot) : Prop := x.posted.length ≤ 4 ∧ x.sound

/-- What an event's work keeps beside what it leaves untouched. -/
structure State.Good (s : State) : Prop where
  jobs : s.intake.jobs.length ≤ 32 ∧ s.jobsDistinct
  copies : s.link.copies.length ≤ 8
  records : s.delivery.records.length ≤ 16
  pieces : s.piecesNumbered
  order : s.order.Nodup ∧ (∀ n ∈ s.order, (s.lay? n).isSome = true) ∧ ∀ n < 8, (s.lay? n).isSome = true → n ∈ s.order
  holds : ∀ n l, s.lay? n = some l → l.holdExplained
  gate : s.gate.sound
  counters : s.events.countersBounded
  halt : s.haltExplained
  slots : ∀ x ∈ s.slots, x.ok
  frames : s.framesHeld
  sFlags : s.link.sFlags.summed

/-! ### Lays -/

theorem holdExplained_keep {l m : Lay} (h : l.holdExplained) (h1 : m.state = l.state) (h2 : m.cause = l.cause)
    (h3 : m.heldFrom = l.heldFrom) : m.holdExplained := by unfold Lay.holdExplained; rw [h1, h2, h3]; exact h

theorem holdExplained_free {l : Lay} (h1 : l.state ≠ .held) (h2 : l.cause = none) (h3 : l.heldFrom = none) : l.holdExplained := by
  simp [Lay.holdExplained, h1, h2, h3]

theorem holdExplained_unheld {l : Lay} (h : l.holdExplained) (hs : l.state ≠ .held) : l.cause = none ∧ l.heldFrom = none := by
  obtain ⟨h1, h2, -⟩ := h
  constructor
  · cases hc : l.cause <;> simp_all
  · cases hc : l.heldFrom <;> simp_all

/-- A lay that is not HELD stays explained in another state that is not HELD. -/
theorem holdExplained_go {l m : Lay} (h : l.holdExplained) (hs : l.state ≠ .held) (h1 : m.state ≠ .held) (h2 : m.cause = l.cause)
    (h3 : m.heldFrom = l.heldFrom) : m.holdExplained := by
  obtain ⟨a, b⟩ := holdExplained_unheld h hs
  exact holdExplained_free h1 (h2.trans a) (h3.trans b)

theorem hold_holdExplained (c : HoldCause) {l : Lay} (h : l.holdExplained) : (Lay.hold c l).holdExplained := by
  unfold Lay.hold
  split
  · exact h
  · rename_i hs; exact ⟨by simp, by simp, by simpa using hs⟩

theorem unhold_holdExplained {st : LayState} (hs : st ≠ .held) (l : Lay) : (Lay.unhold st l).holdExplained :=
  holdExplained_free hs rfl rfl

theorem setEff_holdExplained {st : LayState} (hs : st ≠ .held) {l : Lay} (h : l.holdExplained) : (Lay.setEff st l).holdExplained := by
  unfold Lay.setEff
  split
  · rename_i hl
    obtain ⟨h1, h2, h3⟩ := h
    exact ⟨h1, by simp [hl], by simpa using hs⟩
  · rename_i hl; exact holdExplained_go h hl hs rfl rfl

theorem eff_ne_held {l : Lay} (h : l.holdExplained) : l.eff ≠ .held := by
  unfold Lay.eff
  split
  · rename_i hs
    obtain ⟨-, h2, h3⟩ := h
    cases hf : l.heldFrom with
    | none => simp [hf, hs] at h2
    | some st => simpa [hf] using h3
  · assumption

theorem State.Good.updateLay {s : State} (h : s.Good) {n : Nat} {f : Lay → Lay}
    (hf : ∀ l, s.lay? n = some l → l.holdExplained → (f l).holdExplained) : (s.updateLay n f).Good := by
  have hs : ∀ m, ((s.updateLay n f).lay? m).isSome = (s.lay? m).isSome := by
    intro m; rw [lay?_updateLay]; split <;> simp
  exact {
    jobs := by simpa [State.jobsDistinct] using h.jobs
    pieces := by simpa [State.piecesNumbered] using h.pieces
    copies := by simpa using h.copies
    records := by simpa using h.records
    order := by
      have := h.order
      simpa only [updateLay_order, hs] using this
    holds := by
      intro m l hm
      rw [lay?_updateLay] at hm
      split at hm
      · subst_vars
        simp only [Option.map_eq_some_iff] at hm
        obtain ⟨l', hl, rfl⟩ := hm
        exact hf l' hl (h.holds _ l' hl)
      · exact h.holds m l hm
    gate := by simpa using h.gate
    counters := by simpa using h.counters
    halt := by simpa [State.haltExplained] using h.halt
    slots := by simpa using h.slots
    frames := by simpa [State.framesHeld, State.slot] using h.frames
    sFlags := by simpa using h.sFlags }

/-- A change of a lay's record that leaves its state, cause and held-from. -/
theorem State.Good.touchLay {s : State} (h : s.Good) {n : Nat} {f : Lay → Lay}
    (hf : ∀ l, (f l).state = l.state ∧ (f l).cause = l.cause ∧ (f l).heldFrom = l.heldFrom) : (s.updateLay n f).Good :=
  h.updateLay fun l _ hl => holdExplained_keep hl (hf l).1 (hf l).2.1 (hf l).2.2

theorem State.Good.hold {s : State} (h : s.Good) (n : Nat) (c : HoldCause) : (s.hold n c).Good :=
  h.updateLay fun _ _ hl => hold_holdExplained c hl

theorem State.Good.setZone {s : State} (h : s.Good) (i : ZoneId) (v : Zone) : (s.setZone i v).Good := { h with }

theorem State.Good.occupy {s : State} (h : s.Good) (i : ZoneId) (n : Nat) : (s.occupy i n).Good :=
  (h.setZone i _).touchLay fun _ => ⟨rfl, rfl, rfl⟩

theorem State.Good.vacate {s : State} (h : s.Good) (i : ZoneId) (n : Nat) : (s.vacate i n).Good :=
  (h.setZone i _).touchLay fun _ => ⟨rfl, rfl, rfl⟩

theorem State.Good.unreserve {s : State} (h : s.Good) (i : ZoneId) : (s.unreserve i).Good := { h with }

/-! ### Slots -/

theorem unused_ok : Slot.unused.ok := by
  refine ⟨by simp [Slot.unused], ?_, ?_, ?_, ?_, ?_⟩ <;> simp [Slot.unused, Slot.tagsFollow]

theorem State.Good.slot {s : State} (h : s.Good) (k : Nat) : (s.slot k).ok := by
  unfold State.slot
  cases hk : s.slots[k]? with
  | none => exact unused_ok
  | some x => exact h.slots x (List.mem_of_getElem? hk)

/-- Frames stay held where no frame is added and no tag of a frame that stays is given up. -/
theorem framesHeld_keep {s t : State} (h : s.framesHeld) (ho : t.link.output.Sublist s.link.output)
    (ht : ∀ f ∈ t.link.output, f.tag ∈ (s.slot f.slot).tags → f.tag ∈ (t.slot f.slot).tags) : t.framesHeld :=
  ⟨fun f hf => ht f hf (h.1 f (ho.subset hf)), h.2.sublist (ho.map _)⟩

/-- A slot of the list takes another record; the others stand. -/
theorem slot_setSlot (s : State) (k j : Nat) (x : Slot) :
    (s.setSlot k x).slot j = if j = k ∧ k < s.slots.length then x else s.slot j := by
  unfold State.slot State.setSlot
  by_cases hj : j = k
  · subst hj
    by_cases hk : j < s.slots.length
    · simp [hk]
    · simp [hk]
  · simp [hj, List.getElem?_set_ne (Ne.symm hj)]

theorem slot_outside {s : State} {k : Nat} (hk : ¬k < s.slots.length) : s.slot k = Slot.unused := by
  unfold State.slot; rw [List.getElem?_eq_none (by omega)]; rfl

theorem unused_tags : Slot.unused.tags = [] := rfl

theorem State.Good.setSlot {s : State} (h : s.Good) {k : Nat} {x : Slot} (hx : x.ok)
    (ht : x.tags = (s.slot k).tags := by rfl) : (s.setSlot k x).Good :=
  { h with
    slots := by
      intro y hy
      rcases List.mem_or_eq_of_mem_set hy with hy | rfl
      · exact h.slots y hy
      · exact hx
    frames := framesHeld_keep h.frames (List.Sublist.refl _) fun f _ hf => by
      rw [slot_setSlot]; split
      · rename_i hj; rw [ht, ← hj.1]; exact hf
      · exact hf }

/-- A slot gives up tags whose frames are withdrawn. -/
theorem State.Good.withdrawSlot {s : State} (h : s.Good) {k : Nat} {x : Slot} {ts : List Nat} (hx : x.ok)
    (ht : ∀ n ∈ (s.slot k).tags, n ∉ ts → n ∈ x.tags) : ((s.withdraw k ts).setSlot k x).Good :=
  { h with
    slots := by
      intro y hy
      rcases List.mem_or_eq_of_mem_set hy with hy | rfl
      · exact h.slots y hy
      · exact hx
    frames := framesHeld_keep h.frames List.filter_sublist fun f hm hf => by
      rw [slot_setSlot]; split
      · rename_i hj
        have hn : ¬(f.slot = k ∧ f.tag ∈ ts) := by
          simp only [State.setSlot, State.withdraw, List.mem_filter] at hm; simpa [-not_and, Classical.not_and_iff_not_or_not] using hm.2
        rw [hj.1] at hf
        exact ht _ hf fun hts => hn ⟨hj.1, hts⟩
      · exact hf }

/-- The order in flight ends and its slot keeps at most the tag of its announced STOP. -/
theorem State.Good.endFlight {s : State} (h : s.Good) {k : Nat} {x : Slot} (hx : x.ok)
    (ht : ∀ a, (s.slot k).announced = some a → a.tag ∈ x.tags) : (s.endFlight k x).Good :=
  h.withdrawSlot hx fun n hn hf => by
    simp only [Slot.tags, List.mem_append] at hn
    rcases hn with hn | hn
    · exact absurd hn hf
    · simp only [Option.mem_toList, Option.map_eq_some_iff] at hn
      obtain ⟨a, ha, rfl⟩ := hn
      exact ht a ha

theorem State.Good.mapSlots {s : State} (h : s.Good) {f : Slot → Slot} (hf : ∀ x, x.ok → (f x).ok)
    (ht : ∀ x, (f x).tags = x.tags) : State.Good { s with slots := s.slots.map f } :=
  { h with
    slots := by
      intro y hy
      obtain ⟨x, hx, rfl⟩ := List.mem_map.mp hy
      exact hf x (h.slots x hx)
    frames := framesHeld_keep h.frames (List.Sublist.refl _) fun g _ hg => by
      unfold State.slot at hg ⊢
      rw [List.getElem?_map]
      cases hx : s.slots[g.slot]? with
      | none => rw [hx] at hg; exact hg
      | some x => rw [hx] at hg; exact (ht x).symm ▸ hg }

/-- A change of a slot that leaves what its soundness speaks of. -/
theorem ok_keep {x y : Slot} (h : x.ok) (h1 : y.posted.length ≤ 4) (h2 : y.config = x.config) (h3 : y.state = x.state)
    (h4 : y.nextTag = x.nextTag) (h5 : y.inFlight = x.inFlight) (h6 : y.announced = x.announced) : y.ok := by
  refine ⟨h1, ?_⟩
  unfold Slot.sound Slot.tagsFollow
  rw [h2, h3, h4, h5, h6]
  exact h.2

/-- A change of a slot's orders under the same tags. -/
theorem ok_tags {x y : Slot} (h : x.ok) (h1 : y.posted.length ≤ 4) (h2 : y.config = x.config) (h3 : y.state = x.state)
    (h4 : y.nextTag = x.nextTag) (h5 : y.inFlight.map InFlight.tag = x.inFlight.map InFlight.tag)
    (h6 : y.announced.map Announced.tag = x.announced.map Announced.tag) : y.ok := by
  obtain ⟨-, a, b, c, d, e⟩ := h
  refine ⟨h1, by rw [h2, h3]; exact a, by rw [h4]; exact b, ?_, ?_, ?_⟩
  · intro i hi
    cases hx : x.inFlight with
    | none => simp [hi, hx] at h5
    | some j => simp [hi, hx] at h5; rw [h5]; exact c j hx
  · intro q hq
    cases hx : x.announced with
    | none => simp [hq, hx] at h6
    | some r =>
      simp [hq, hx] at h6
      refine ⟨by rw [h6]; exact (d r hx).1, ?_⟩
      have := (d r hx).2
      cases hi : y.inFlight with
      | some i => rfl
      | none => cases hx : x.inFlight <;> simp_all
  · intro i hi
    cases hx : x.inFlight with
    | none => simp [hi, hx] at h5
    | some j =>
      have hj := e j hx
      simp [hi, hx] at h5
      rw [h4, h5]
      cases hq : y.announced <;> cases hr : x.announced <;> simp [hq, hr] at h6 <;> simp only [hr] at hj
      · exact hj
      · dsimp only at hj ⊢; rw [h6]; exact hj

/-- An ORDER frame is handed over whose tag its slot holds and no frame that waits has. -/
theorem State.Good.handFrame {s : State} (h : s.Good) {f : OrderFrame} (ht : f.tag ∈ (s.slot f.slot).tags)
    (hn : ∀ g ∈ s.link.output, g.slot = f.slot → g.tag ≠ f.tag) : (s.handFrame f).Good := by
  unfold State.handFrame LinkUnit.handFrame
  split
  · exact { h with }
  · split
    · exact { h with }
    · exact { h with
        frames := by
          refine ⟨?_, ?_⟩
          · intro g hg
            rcases List.mem_append.mp hg with hg | hg
            · exact h.frames.1 g hg
            · simp only [List.mem_singleton] at hg; subst hg; exact ht
          · simp only [List.map_append, List.map_cons, List.map_nil]
            refine List.nodup_append.mpr ⟨h.frames.2, by simp, ?_⟩
            intro a ha b hb
            simp only [List.mem_singleton] at hb
            obtain ⟨g, hg, rfl⟩ := List.mem_map.mp ha
            subst hb
            intro he
            simp only [Prod.mk.injEq] at he
            exact hn g hg he.1 he.2 }

theorem mapSources_ok (f : Source → Source) {x : Slot} (h : x.ok) : (x.mapSources f).ok :=
  ok_tags h (by simpa [Slot.mapSources] using h.1) rfl rfl rfl (by simp [Slot.mapSources, Function.comp_def])
    (by simp [Slot.mapSources, Function.comp_def])

theorem mapSources_tags (f : Source → Source) (x : Slot) : (x.mapSources f).tags = x.tags := by
  simp [Slot.tags, Slot.flightTags, Slot.mapSources, Function.comp_def]

theorem refill_length {x : Slot} (h : x.posted.length ≤ 4) : x.refill.posted.length ≤ 4 := by
  simp [Slot.refill]; omega

/-- No frame waits with a tag its slot does not hold. -/
theorem State.Good.fresh {s : State} (h : s.Good) {k n : Nat} (hn : n ∉ (s.slot k).tags) :
    ∀ g ∈ s.link.output, g.slot = k → g.tag ≠ n := by
  rintro g hg rfl rfl; exact hn (h.frames.1 g hg)

/-- The frame of an order whose record has just taken its tag is handed over. -/
theorem State.Good.takeTag {s : State} (h : s.Good) {k : Nat} {x : Slot} {f : OrderFrame} (hk : k < s.slots.length) (hx : x.ok)
    (ht : ∀ n ∈ (s.slot k).tags, n ∈ x.tags) (hf : f.slot = k) (h1 : f.tag ∈ x.tags) (h2 : f.tag ∉ (s.slot k).tags) :
    ((s.setSlot k x).handFrame f).Good := by
  have hg : (s.setSlot k x).Good :=
    { h with
      slots := by
        intro y hy
        rcases List.mem_or_eq_of_mem_set hy with hy | rfl
        · exact h.slots y hy
        · exact hx
      frames := framesHeld_keep h.frames (List.Sublist.refl _) fun g _ hg => by
        rw [slot_setSlot]; split
        · rename_i hj; rw [hj.1] at hg; exact ht _ hg
        · exact hg }
  subst hf
  exact hg.handFrame (by rw [slot_setSlot, if_pos ⟨rfl, hk⟩]; exact h1) (h.fresh h2)

/-- A slot with nothing in flight sends an order. -/
theorem State.Good.sendOrder {s : State} (h : s.Good) {k : Nat} (o : Order) (ms : Nat) (hk : k < s.slots.length)
    (hi : (s.slot k).inFlight = none) : (s.sendOrder k o ms).Good := by
  obtain ⟨h1, h2, h3, h4, h5, h6⟩ := h.slot k
  have ha : (s.slot k).announced = none := by
    cases ha : (s.slot k).announced with
    | none => rfl
    | some a => have := (h5 a ha).2; simp [hi] at this
  have ht : (s.slot k).tags = [] := by simp [Slot.tags, Slot.flightTags, hi, ha]
  unfold State.sendOrder
  refine h.takeTag hk ⟨h1, h2, Nat.mod_lt _ (by omega), ?_, ?_, ?_⟩ (by simp [ht]) rfl
    (by simp [Slot.tags, Slot.flightTags]) (by simp [ht])
  · intro i hi; simp only [Option.some.injEq] at hi; subst hi; exact h3
  · intro a ha'; simp [ha] at ha'
  · intro i hi'; simp only [Option.some.injEq] at hi'; subst hi'; simp [ha]

theorem State.Good.announceStop {s : State} (h : s.Good) {k : Nat} (o : Order) (hi : (s.slot k).inFlight.isSome = true)
    (ha : (s.slot k).announced = none) : (announceStop k o s).Good := by
  obtain ⟨h1, h2, h3, h4, h5, h6⟩ := h.slot k
  obtain ⟨i, hi⟩ := Option.isSome_iff_exists.mp hi
  have hk : k < s.slots.length := by
    by_cases hk : k < s.slots.length
    · exact hk
    · rw [slot_outside hk] at hi; simp [Slot.unused] at hi
  have h4' := h4 i hi
  have h6' := h6 i hi
  simp only [ha] at h6'
  have ht : (s.slot k).tags = [i.tag] := by simp [Slot.tags, Slot.flightTags, hi, ha]
  unfold Machine.announceStop
  refine h.takeTag hk ⟨h1, h2, Nat.mod_lt _ (by omega), h4, ?_, ?_⟩ ?_ rfl (by simp [Slot.tags]) (by simp [ht]; omega)
  · intro a ha'; simp only [Option.some.injEq] at ha'; subst ha'; exact ⟨h3, by simp [hi]⟩
  · intro j hj
    rw [hi] at hj; simp only [Option.some.injEq] at hj; subst hj
    exact ⟨h6', by simp only [h6']; omega⟩
  · intro n hn; rw [ht] at hn; simp only [List.mem_singleton] at hn; subst hn; simp [Slot.tags, Slot.flightTags, hi]

/-- The youngest that may be dropped is one of the list. -/
theorem dropYoungest_length {p : Order → Bool} {l rest : List Order} {d : Order} (h : dropYoungest p l = some (rest, d)) :
    rest.length + 1 = l.length := by
  induction l generalizing rest d with
  | nil => simp [dropYoungest] at h
  | cons o l ih =>
    unfold dropYoungest at h
    cases hd : dropYoungest p l with
    | some r =>
      rw [hd] at h
      simp only [Option.some.injEq, Prod.mk.injEq] at h
      obtain ⟨rfl, rfl⟩ := h
      have := ih (rest := r.1) (d := r.2) hd
      simp; omega
    | none =>
      rw [hd] at h
      dsimp only at h
      split at h
      · simp only [Option.some.injEq, Prod.mk.injEq] at h; obtain ⟨rfl, rfl⟩ := h; rfl
      · simp at h

/-- Where one may be dropped, one is. -/
theorem dropYoungest_none {p : Order → Bool} {l : List Order} (h : dropYoungest p l = none) : ∀ o ∈ l, p o = false := by
  induction l with
  | nil => simp
  | cons o l ih =>
    unfold dropYoungest at h
    cases hd : dropYoungest p l with
    | some r => simp [hd] at h
    | none =>
      rw [hd] at h
      dsimp only at h
      split at h
      · simp at h
      · rename_i ho
        intro q hq
        rcases List.mem_cons.mp hq with rfl | hq
        · simpa using ho
        · exact ih hd q hq

theorem State.Good.placeFull {s : State} (h : s.Good) (k : Nat) (o : Order) : (placeFull k o s).1.Good := by
  have hk := h.slot k
  unfold Machine.placeFull
  dsimp only
  split
  · exact h.setSlot (ok_keep hk hk.1 rfl rfl rfl rfl rfl)
  · split
    · split
      · rename_i rest d hd
        have := dropYoungest_length hd
        have h4 := hk.1
        exact h.setSlot (ok_keep hk (by simp; omega) rfl rfl rfl rfl rfl)
      · exact h.setSlot (ok_keep hk hk.1 rfl rfl rfl rfl rfl)
    · exact h

/-- A STOP at the head of a queue whose oldest order is no STOP, or of an empty one. -/
theorem State.Good.headStop {s : State} (h : s.Good) (k : Nat) (o : Order)
    (hp : (s.slot k).posted = [] ∨ ∃ d ∈ (s.slot k).posted, d.kind ≠ .stop) : (headStop k o s).1.Good := by
  have hk := h.slot k
  unfold Machine.headStop
  dsimp only
  split
  · rename_i hl; exact h.setSlot (ok_keep hk hl rfl rfl rfl rfl rfl)
  · rename_i hl
    split
    · rename_i rest d hd
      have := dropYoungest_length hd
      have h4 := hk.1
      simp only [List.length_cons] at this
      exact h.setSlot (ok_keep hk (by simp; omega) rfl rfl rfl rfl rfl)
    · rename_i hd
      rcases hp with hp | ⟨d, hd1, hd2⟩
      · simp [hp] at hl
      · have := dropYoungest_none hd d (List.mem_cons_of_mem _ hd1)
        simp [hd2] at this

theorem State.Good.placeStop {s : State} (h : s.Good) (k : Nat) (o : Order) : (placeStop k o s).1.Good := by
  have h1 := (h.slot k).1
  have flight : ∀ {i : InFlight} {o' : Order}, (s.slot k).inFlight = some i →
      (s.setSlot k { s.slot k with inFlight := some { i with order := o' } }).Good := by
    intro i o' hi
    exact h.setSlot (ok_tags (h.slot k) h1 rfl rfl rfl (by simp [hi]) rfl) (by simp [Slot.tags, Slot.flightTags, hi])
  have joined : ∀ {h' : Order} {rest : List Order} {x : Order}, (s.slot k).posted = h' :: rest →
      Slot.ok { s.slot k with posted := x :: rest } := by
    intro h' rest x hp
    exact ok_keep (h.slot k) (by rw [hp] at h1; simpa using h1) rfl rfl rfl rfl rfl
  unfold Machine.placeStop
  dsimp only
  split
  · rename_i a ha
    exact h.setSlot (ok_tags (h.slot k) h1 rfl rfl rfl rfl (by simp [ha])) (by simp [Slot.tags, Slot.flightTags, ha])
  · rename_i i ha hi hp
    split
    · exact flight hi
    · split
      · exact h.announceStop o (by rw [hi]; rfl) ha
      · exact h.headStop k o (Or.inl hp)
  · rename_i i h' rest ha hi hp
    split
    · exact flight hi
    · split
      · exact h.setSlot (joined hp)
      · rename_i hs
        split
        · exact h.announceStop o (by rw [hi]; rfl) ha
        · exact h.headStop k o (Or.inr ⟨h', by rw [hp]; simp, hs⟩)
  · rename_i h' rest ha hi hp
    split
    · exact h.setSlot (joined hp)
    · rename_i hs; exact h.headStop k o (Or.inr ⟨h', by rw [hp]; simp, hs⟩)
  · rename_i hp; exact h.headStop k o (Or.inl hp)

theorem State.Good.postOrder {s : State} (h : s.Good) (k : Nat) (o : Order) : (postOrder k o s).1.Good := by
  unfold Machine.postOrder
  dsimp only
  split
  · exact h
  · split
    · exact h.placeStop k o
    · split
      · rename_i hl; exact h.setSlot (ok_keep (h.slot k) (by simp; omega) rfl rfl rfl rfl rfl)
      · exact h.placeFull k o

/-! ### Sending -/

theorem State.Good.sendLamp {s : State} (h : s.Good) {k : Nat} (v : LampState) (hk : k < s.slots.length)
    (hi : (s.slot k).inFlight = none) : (s.sendLamp k v).Good := by
  have h' : (s.setSlot k { s.slot k with lampPending := none, lamp := v }).Good :=
    h.setSlot (ok_keep (h.slot k) (h.slot k).1 rfl rfl rfl rfl rfl)
  unfold State.sendLamp
  dsimp only
  split
  · exact h'
  · exact h'.sendOrder _ _ (by simpa [State.setSlot] using hk) (by rw [slot_setSlot, if_pos ⟨rfl, hk⟩]; exact hi)

theorem State.Good.sendHead {s : State} (h : s.Good) {k : Nat} {o : Order} {rest : List Order} (hp : (s.slot k).posted = o :: rest)
    (hk : k < s.slots.length) (hi : (s.slot k).inFlight = none) : (s.sendHead k o rest).Good := by
  unfold State.sendHead
  dsimp only
  refine State.Good.sendOrder (h.setSlot ?_) o _ (by simpa [State.setSlot] using hk)
    (by rw [slot_setSlot, if_pos ⟨rfl, hk⟩]; exact hi)
  have h1 := (h.slot k).1
  rw [hp] at h1
  exact ok_keep (h.slot k) (refill_length (by simp at h1 ⊢; omega)) rfl rfl rfl rfl rfl

theorem State.Good.slotSend {s s' : State} (h : s.Good) {k : Nat} (hs : s.slotSend k = some s') : s'.Good := by
  have hk : k < s.slots.length := by
    by_cases hk : k < s.slots.length
    · exact hk
    · simp [State.slotSend, slot_outside hk, Slot.unused] at hs
  unfold State.slotSend at hs
  dsimp only at hs
  split at hs
  · simp at hs
  · rename_i hi
    have hi : (s.slot k).inFlight = none := by simpa using hi
    split at hs
    · unfold State.sendReady at hs
      dsimp only at hs
      split at hs
      · simp at hs
      · simp only [Option.some.injEq] at hs; subst hs; exact h.sendLamp _ hk hi
      · rename_i hp _; simp only [Option.some.injEq] at hs; subst hs; exact h.sendHead hp hk hi
      · rename_i hp _
        split at hs <;> (simp only [Option.some.injEq] at hs; subst hs)
        · exact h.sendHead hp hk hi
        · exact h.sendLamp _ hk hi
    · simp only [Option.some.injEq] at hs; subst hs; exact h.sendOrder _ _ hk hi
    · simp only [Option.map_eq_some_iff] at hs
      obtain ⟨v, -, rfl⟩ := hs
      exact h.sendLamp v hk hi
    · simp at hs
    · simp at hs

/-! ### Events and holds -/

theorem bump_le (limit n : Nat) : bump limit n ≤ limit := by unfold bump; split <;> omega

theorem take_counter (j : Subject) (d : Nat) (r : KindRecord) : (r.take j d).counter ≤ 65535 := by
  unfold KindRecord.take; split <;> exact bump_le _ _

theorem State.Good.record {s : State} (h : s.Good) (k : EventKind) (j : Subject) (d : Nat) : (s.record k j d).Good :=
  { h with
    counters := by
      intro r hr
      rcases List.mem_or_eq_of_mem_set hr with hr | rfl
      · exact h.counters r hr
      · exact take_counter j d _ }

theorem withdraw_sound {g : Gate} (h : g.sound) : g.withdraw.sound := by
  obtain ⟨-, h2, h3, -⟩ := h
  exact ⟨by simp [Gate.withdraw], h2, h3, by simp [Gate.withdraw]⟩

theorem State.Good.setGate {s : State} (h : s.Good) {g : Gate} (hg : g.sound) : State.Good { s with gate := g } := { h with gate := hg }

theorem State.Good.setDeferred {s : State} (h : s.Good) (d : Option DeferredHold) :
    State.Good { s with events := { s.events with deferred := d } } := { h with }

theorem State.Good.takeDeferred {s : State} (h : s.Good) : s.takeDeferred.Good := by
  unfold State.takeDeferred
  split
  · exact h
  · exact (h.setDeferred none).hold _ _

theorem State.Good.holdByEvent {s : State} (h : s.Good) (n : Nat) (k : EventKind) (d : Nat) : (holdByEvent n k d s).1.Good := by
  unfold Machine.holdByEvent
  repeat' split
  · exact h
  · exact h
  · exact h.setDeferred _
  · exact h
  · exact (h.setGate (withdraw_sound h.gate)).updateLay fun l _ hl => hold_holdExplained _ (holdExplained_keep hl rfl rfl rfl)
  · exact h.hold _ _

theorem State.Good.haltCell {s : State} (h : s.Good) (c : EventRecord) : (haltCell c s).1.Good := by
  have h1 := (h.mapSlots (f := Slot.mapSources .detach) (fun x hx => mapSources_ok _ hx) (mapSources_tags _)).mapSlots
    (f := fun x => { x with inFlight := x.inFlight.map fun i => { i with order := i.order.mapSources Source.markHalt } })
    (fun x hx => ok_tags hx hx.1 rfl rfl rfl (by simp [Function.comp_def]) rfl)
    (fun x => by simp [Slot.tags, Slot.flightTags, Function.comp_def])
  exact { h with halt := by simp [State.haltExplained, Machine.haltCell], slots := h1.slots, frames := h1.frames }

theorem State.Good.escalate {s : State} (h : s.Good) (c : EventClass) (k : EventKind) (j : Subject) (d : Nat) :
    (escalate c k j d s).1.Good := by
  unfold Machine.escalate
  repeat' split
  · exact h.holdByEvent _ _ _
  · exact h.haltCell _
  · exact h
  · exact h

theorem State.Good.takeEvent {s : State} (h : s.Good) (k : EventKind) (j : Subject) (d : Nat) : (takeEvent k j d s).1.Good :=
  (h.record k j d).escalate _ k j d

/-! ### Lays -/

theorem State.Good.freeLay {s : State} (h : s.Good) {n : Nat} (l : Lay) (hr : s.delivery.records.length < 16)
    (hn : n < s.lays.length) : (s.freeLay n l).Good := by
  have hl : ∀ m, (s.freeLay n l).lay? m = if m = n then none else s.lay? m := lay?_setLay (s := s) none hn
  obtain ⟨o1, o2, o3⟩ := h.order
  exact { h with
    records := by simp [State.freeLay]; omega
    order := by
      refine ⟨o1.filter _, ?_, ?_⟩
      · intro m hm
        simp only [State.freeLay, List.mem_filter, decide_eq_true_eq] at hm
        rw [hl, if_neg hm.2]; exact o2 m hm.1
      · intro m hm hs
        rw [hl] at hs
        split at hs
        · simp at hs
        · rename_i hmn; simp only [State.freeLay, List.mem_filter, decide_eq_true_eq]; exact ⟨o3 m hm hs, hmn⟩
    holds := by
      intro m l' hm
      rw [hl] at hm
      split at hm
      · simp at hm
      · exact h.holds m l' hm }

theorem State.Good.setQueue {s : State} (h : s.Good) (q : List Nat) :
    State.Good { s with delivery := { s.delivery with finishQueue := q } } := { h with }

theorem State.Good.finishTest {s : State} (h : s.Good) (n : Nat) : (finishTest n s).1.Good := by
  unfold Machine.finishTest
  split
  · exact h
  · rename_i l hl
    split
    · exact h
    · split
      · rename_i hr; exact h.freeLay l hr.1 (lay?_lt hl)
      · exact h.setQueue _

theorem State.Good.finishAbandoned {s : State} (h : s.Good) (n : Nat) : (finishAbandoned n s).1.Good :=
  h.updateLay fun _ _ _ => holdExplained_free (by simp [Lay.unhold]) rfl rfl

theorem State.Good.drain {s : State} (h : s.Good) (n : Nat) : (drain n s).Good :=
  h.updateLay fun _ _ _ => holdExplained_free (by simp [Lay.unhold]) rfl rfl

theorem State.Good.lower {s : State} (h : s.Good) (n : Nat) : (lower n s).Good :=
  h.updateLay fun _ _ _ => holdExplained_free (by simp [Lay.unhold]) rfl rfl

theorem State.Good.takeAbandon {s : State} (h : s.Good) (n : Nat) : (takeAbandon n s).1.Good := by
  unfold Machine.takeAbandon
  split
  · exact h.finishAbandoned n
  · exact h.lower n
  · exact h.drain n

theorem State.Good.moveEnded {s : State} (h : s.Good) (n : Nat) : (moveEnded n s).1.Good := by
  unfold Machine.moveEnded
  split
  · exact h.takeAbandon n
  · exact h

theorem State.Good.bindLay {s : State} (h : s.Good) (n : Nat) (e : JobEntry) : (bindLay n e s).1.Good := by
  have hb : ∀ l, s.lay? n = some l → ¬l.state ≠ .awaitJob → (s.setLay n (some (l.copyJob e))).Good := by
    intro l hl hs
    rw [← updateLay_some hl (Lay.copyJob e)]
    refine h.updateLay fun l' hl' hx => ?_
    rw [hl] at hl'
    simp only [Option.some.injEq] at hl'
    subst hl'
    have : l.state = .awaitJob := by simpa using hs
    exact holdExplained_go hx (by simp [this]) (by simp [Lay.copyJob]) rfl rfl
  unfold Machine.bindLay
  split
  · exact h
  · rename_i l hl
    split
    · exact h
    · rename_i hs
      dsimp only
      repeat' split
      all_goals exact hb l hl hs

theorem toFront_jobs {i : Intake} {e : JobEntry} (h : i.jobs.length ≤ 32 ∧ (i.jobs.map JobEntry.job).Nodup)
    (hr : (∃ f ∈ i.jobs, f.job = e.job) ∨ i.jobs.length < 32) :
    (i.toFront e).jobs.length ≤ 32 ∧ ((i.toFront e).jobs.map JobEntry.job).Nodup := by
  refine ⟨?_, ?_⟩
  · have hlt : (i.jobs.filter fun f => decide (f.job ≠ e.job)).length < 32 := by
      rcases hr with ⟨f, hf, hj⟩ | hr
      · have : (i.jobs.filter fun f => decide (f.job ≠ e.job)).length < i.jobs.length := by
          refine Nat.lt_of_le_of_ne (List.length_filter_le _ _) fun heq => ?_
          have := List.length_filter_eq_length_iff.mp heq f hf
          simp [hj] at this
        omega
      · exact Nat.lt_of_le_of_lt (List.length_filter_le _ _) hr
    simp only [Intake.toFront, List.length_cons]; omega
  · simp only [Intake.toFront, List.map_cons, List.nodup_cons]
    refine ⟨?_, ?_⟩
    · intro hm
      obtain ⟨f, hf, hj⟩ := List.mem_map.mp hm
      simp [List.mem_filter, hj] at hf
    · exact h.2.sublist (List.Sublist.map _ List.filter_sublist)

theorem State.Good.searchMap {s : State} (h : s.Good) (n job : Nat) : (searchMap n job s).1.Good := by
  unfold Machine.searchMap
  split
  · rename_i e he
    have hm : e ∈ s.intake.jobs := List.mem_of_find?_eq_some he
    exact { h with jobs := toFront_jobs h.jobs (Or.inl ⟨e, hm, rfl⟩) }
  · exact h

theorem State.Good.fillEnds {s : State} (h : s.Good) : (fillEnds s).1.Good := { h with }

theorem State.Good.releaseLay {s : State} (h : s.Good) (n : Nat) : (releaseLay n s).1.Good := by
  have hb : ∀ l (p : Bool), s.lay? n = some l → (s.setLay n (some ((if p = true then l.advance else l).unhold l.eff))).Good := by
    intro l p hl
    rw [← updateLay_some hl fun l => (if p = true then l.advance else l).unhold l.eff]
    exact h.updateLay fun l' _ hx => unhold_holdExplained (eff_ne_held hx) _
  unfold Machine.releaseLay
  split
  · exact h
  · rename_i l hl
    dsimp only
    repeat' split
    all_goals first
      | exact (hb l true hl).searchMap _ _
      | exact (hb l false hl).searchMap _ _
      | exact hb l true hl
      | exact hb l false hl

theorem State.Good.recheckFailed {s : State} (h : s.Good) (n : Nat) (k : EventKind) (d : Nat) : (recheckFailed n k d s).1.Good := by
  unfold Machine.recheckFailed
  split
  · refine h.updateLay fun l _ hl => ?_
    split
    · rename_i hs
      exact ⟨by simp [hs], hl.2.1, hl.2.2⟩
    · exact hl
  · exact h

/-! ### Steps -/

theorem State.Good.giveUp {s : State} (h : s.Good) (n : Nat) : (giveUp n s).1.Good := by
  unfold Machine.giveUp
  split
  · exact h.touchLay fun _ => ⟨rfl, rfl, rfl⟩
  · exact h

theorem State.Good.checkFails {s : State} (h : s.Good) (n : Nat) (k : EventKind) : (checkFails n k s).1.Good :=
  h.touchLay fun _ => ⟨rfl, rfl, rfl⟩

theorem State.Good.execCut {s : State} (h : s.Good) (n : Nat) (st : Step) (x : Nat) : (execCut n st x s).1.Good := by
  unfold Machine.execCut
  split
  · exact h.touchLay fun _ => ⟨rfl, rfl, rfl⟩
  · exact h.checkFails _ _
  · exact h.checkFails _ _
  · exact h.touchLay fun _ => ⟨rfl, rfl, rfl⟩
  · exact h

theorem State.Good.execStep {s : State} (h : s.Good) (n : Nat) (l : Lay) (st : Step) : (execStep n l st s).1.Good := by
  unfold Machine.execStep
  dsimp only
  repeat' split
  all_goals first
    | exact h.execCut _ _ _
    | exact h.touchLay fun _ => ⟨rfl, rfl, rfl⟩
    | exact h.checkFails _ _
    | exact h

theorem State.Good.evalStep {s : State} (h : s.Good) (n : Nat) (l : Lay) (st : Step) : (evalStep n l st s).1.Good := by
  unfold Machine.evalStep
  repeat' split
  all_goals first
    | exact h.execStep _ _ _
    | exact h.touchLay fun _ => ⟨rfl, rfl, rfl⟩

theorem State.Good.execUnheld {s : State} (h : s.Good) (n : Nat) : (execUnheld n s).1.Good := by
  unfold Machine.execUnheld
  repeat' split
  all_goals first
    | exact h.execStep _ _ _
    | exact h

theorem State.Good.drainUnheld {s : State} (h : s.Good) (n : Nat) : (drainUnheld n s).1.Good := by
  unfold Machine.drainUnheld
  split
  · exact h.drain n
  · exact h

/-! ### Delivery -/

theorem State.Good.handOver {s : State} (h : s.Good) (n : Nat) (c : PieceClass) (d w : Nat) (k : PieceKind) :
    (s.handOver n c d w k).Good :=
  { h with
    pieces := by
      obtain ⟨p1, p2⟩ := h.pieces
      constructor
      · simp only [State.handOver, List.map_append, List.map_cons, List.map_nil, List.nodup_append]
        exact ⟨p1, by simp, by simpa using fun q hq => Nat.ne_of_lt (p2 q hq)⟩
      · simpa [State.handOver, or_imp, forall_and] using fun q hq => Nat.lt_succ_of_lt (p2 q hq) }

theorem State.Good.setSeq {s : State} (h : s.Good) (q : Sequencer) : State.Good { s with seq := q } := { h with }

theorem State.Good.handOverInHand {s : State} (h : s.Good) : s.handOverInHand.Good := by
  unfold State.handOverInHand
  split
  · exact h
  · exact (h.handOver _ _ _ _ _).setSeq _

/-- A piece list whose numbers are some of those that stand. -/
theorem State.Good.setPieces {s : State} (h : s.Good) {q : List Piece}
    (hq : (q.map Piece.number).Sublist (s.delivery.pieces.map Piece.number)) :
    State.Good { s with delivery := { s.delivery with pieces := q } } :=
  { h with
    pieces := by
      refine ⟨h.pieces.1.sublist hq, fun p hp => ?_⟩
      obtain ⟨r, hr, he⟩ := List.mem_map.mp (hq.mem (List.mem_map_of_mem hp))
      exact he ▸ h.pieces.2 r hr }

/-- A change of the first piece of a kind that keeps its number or takes it off the list. -/
theorem modifyFirst_numbers (p : Piece → Bool) {f : Piece → Option Piece} (hf : ∀ x y, f x = some y → y.number = x.number)
    (q : List Piece) : ((modifyFirst p f q).map Piece.number).Sublist (q.map Piece.number) := by
  induction q with
  | nil => exact .slnil
  | cons x rest ih =>
    unfold modifyFirst
    split
    · cases hx : f x with
      | none => simp
      | some y => simp [hf x y hx]
    · exact ih.cons_cons _

theorem countPiece_touches (d : Destination) (l : Lay) :
    (l.countPiece d).state = l.state ∧ (l.countPiece d).cause = l.cause ∧ (l.countPiece d).heldFrom = l.heldFrom := by
  cases d <;> exact ⟨rfl, rfl, rfl⟩

theorem State.Good.deliverEnds {s : State} (h : s.Good) (n i : Nat) (how : End) : (deliverEnds n i how s).1.Good := by
  unfold Machine.deliverEnds
  repeat' split
  · exact h
  · exact (h.setPieces (modifyFirst_numbers _ (by simp) _)).touchLay fun l => countPiece_touches _ l
  all_goals exact h.setPieces (modifyFirst_numbers _ (by simp +contextual [eq_comm]) _)

/-! ### The arbiter -/

theorem State.Good.presentEnds {s : State} (h : s.Good) (n : Nat) (how : End) : (presentEnds n how s).1.Good := by
  unfold Machine.presentEnds
  split
  · exact (h.occupy _ _).updateLay fun _ _ hl => setEff_holdExplained (by simp) hl
  · exact (h.unreserve _).updateLay fun _ _ hl => setEff_holdExplained (by simp) hl

theorem State.Good.lowerEnds {s : State} (h : s.Good) (n : Nat) (how : End) : (lowerEnds n how s).1.Good := by
  unfold Machine.lowerEnds
  split
  · exact (h.vacate _ _).finishAbandoned n
  · exact h.updateLay fun _ _ hl => setEff_holdExplained (by simp) hl

theorem arrive_holdExplained (z : ZoneId) {l : Lay} (h : l.holdExplained) : (l.arrive z).holdExplained := by
  unfold Lay.arrive
  repeat' split
  all_goals first
    | exact h
    | exact setEff_holdExplained (by simp) h
    | exact holdExplained_keep h rfl rfl rfl
    | exact holdExplained_keep (setEff_holdExplained (st := .cutting) (by simp) h) rfl rfl rfl

theorem State.Good.moveLayEnds {s : State} (h : s.Good) (a b : ZoneId) (n : Nat) (how : End) : (moveLayEnds a b n how s).1.Good := by
  have h' : ((s.unreserve b).updateLay n fun l => if l.eff = .draining then l else l.setEff .waiting).Good :=
    (h.unreserve b).updateLay fun l _ hl => by
      split
      · exact hl
      · exact setEff_holdExplained (by simp) hl
  unfold Machine.moveLayEnds
  dsimp only
  repeat' split
  · exact ((h.vacate a n).occupy b n).updateLay fun _ _ hl => arrive_holdExplained b hl
  · exact h'
  · exact h'

theorem State.Good.jogEnds {s : State} (h : s.Good) (n : Nat) (how : End) : (jogEnds n how s).1.Good := by
  unfold Machine.jogEnds
  split
  · refine h.updateLay fun l _ hl => ?_
    split
    · exact setEff_holdExplained (by simp) hl
    · exact hl
  · exact h

theorem State.Good.arbiterEnds {s : State} (h : s.Good) (k : OrderKind) (n : Nat) (how : End) : (arbiterEnds k n how s).1.Good := by
  unfold Machine.arbiterEnds
  split
  · exact h.presentEnds _ _
  · exact h.lowerEnds _ _
  · exact h.moveLayEnds _ _ _ _
  · exact h.jogEnds _ _
  · exact h

/-- A grant to a lay that may move. -/
theorem State.Good.grantMove {s : State} (h : s.Good) (m : ZoneId × ZoneId) {n : Nat}
    (hn : ∀ l, s.lay? n = some l → l.state ≠ .held) : (grantMove m n s).1.Good := by
  refine (h.setZone _ _).updateLay fun l hl hx => ?_
  split
  · exact hx
  · exact holdExplained_go hx (hn l hl) (by simp) rfl rfl

/-! ### The gate -/

theorem permit_sound {g : Gate} (h : g.sound) (p : Permit) (w : Nat) : Gate.sound { g with
    state := .opened, permit := some p, permits := bump32 g.permits, window := some w, timer := none } := by
  obtain ⟨-, h2, h3, -⟩ := h
  unfold bump32 bump
  refine ⟨by simp, ?_, ?_, fun _ => ?_⟩ <;> dsimp only <;> split <;> omega

theorem lockOut_sound {g : Gate} (h : g.sound) : g.lockOut.sound := by
  obtain ⟨-, h2, h3, -⟩ := h
  exact ⟨by simp [Gate.lockOut], h2, h3, by simp [Gate.lockOut]⟩

theorem complete_sound {g : Gate} (h : g.sound) (hs : g.state = .stroke) (limit : Nat) : (g.complete limit).sound := by
  obtain ⟨-, h2, h3, h4⟩ := h
  have h5 := h4 (Or.inr hs)
  refine ⟨by simp [Gate.complete], ?_, h3, by simp [Gate.complete]⟩
  simp only [Gate.complete, bump32, bump]
  split <;> omega

theorem working_lt {s : State} {kind : StationKind} {k : Nat} (hk : s.working kind = some k) : k < s.slots.length :=
  (List.findIdx?_eq_some_iff_getElem.mp hk).1

/-- A permit is issued to a knife that is quiet. -/
theorem State.Good.issuePermit {s : State} (h : s.Good) (n : Nat)
    (hq : (s.workingSlot .knife).any fun x => decide (x.state = .ready) && x.isQuiet && decide (x.position = some .top)) :
    (issuePermit n s).1.Good := by
  unfold Machine.issuePermit
  split
  · exact h
  · rename_i k hk
    refine (h.sendOrder _ _ (working_lt hk) ?_).setGate (permit_sound h.gate _ _)
    simp only [State.workingSlot, hk, Option.map_some, Option.any_some, Slot.isQuiet, Bool.and_eq_true] at hq
    simpa using hq.1.2.1

/-- Where a permit is due the knife is quiet (R97). -/
theorem duePermit_knife {s : State} {n : Nat} (hd : s.duePermit = some n) :
    (s.workingSlot .knife).any fun x => decide (x.state = .ready) && x.isQuiet && decide (x.position = some .top) := by
  have := (Option.filter_eq_some_iff.mp hd).2
  simp only [Option.any_eq_true] at this
  obtain ⟨l, -, hl⟩ := this
  simp only [State.permitConditions, List.all_cons, id_eq, Bool.and_eq_true] at hl
  exact hl.2.2.2.2.1

theorem State.Good.lockOutGate {s : State} (h : s.Good) : (lockOutGate s).1.Good := by
  unfold Machine.lockOutGate
  split
  · exact h.setGate (lockOut_sound h.gate)
  · exact State.Good.takeDeferred (State.Good.touchLay (h.setGate (lockOut_sound h.gate))
      (f := fun l => { l with phase := some .positioning }) fun _ => ⟨rfl, rfl, rfl⟩)

theorem State.Good.strokeFails {s : State} (h : s.Good) (d : Nat) : (strokeFails d s).1.Good := h.lockOutGate

theorem State.Good.unbidden {s : State} (h : s.Good) (d : Nat) : (unbidden d s).1.Good := h.lockOutGate

theorem countRun_touches (l : Lay) :
    l.countRun.state = l.state ∧ l.countRun.cause = l.cause ∧ l.countRun.heldFrom = l.heldFrom := by
  unfold Lay.countRun; split <;> exact ⟨rfl, rfl, rfl⟩

theorem State.Good.commitCut {s : State} (h : s.Good) (n : Nat) : (commitCut n s).Good := by
  unfold Machine.commitCut
  split
  · exact h
  · rename_i l hl
    have : (s.setLay n (some l.commitCut)).Good := by
      rw [← updateLay_some hl Lay.commitCut]
      exact h.touchLay fun l => countRun_touches l
    exact this.setSeq _

theorem State.Good.strokeDone {s : State} (h : s.Good) (hs : s.gate.state = .stroke) : (strokeDone s).1.Good := by
  have h' := h.setGate (complete_sound h.gate hs s.cell.params.knifeWearLimit)
  unfold Machine.strokeDone
  dsimp only
  split
  · exact (h'.commitCut _).takeDeferred
  · exact h'

theorem State.Good.gateEnds {s : State} (h : s.Good) (o : OrderKind) (k n : Nat) (tag : Option Nat) (how : End) :
    (gateEnds o k n tag how s).1.Good := by
  unfold Machine.gateEnds
  split
  · exact h
  · split
    · unfold strokeEndsOpen; split
      · exact h.unbidden _
      · exact h.setGate (withdraw_sound h.gate)
    · rename_i hs _
      unfold strokeEndsStroke; split
      · exact h.strokeDone hs
      all_goals exact h.strokeFails _
    all_goals
      split
      · exact h.unbidden _
      · exact h

/-! ### The sequencer -/

theorem State.Good.sequenceMove {s : State} (h : s.Good) (p n : Nat) : (s.sequenceMove p n).1.Good := h.setSeq _

theorem State.Good.beginPositioning {s : State} (h : s.Good) (n : Nat) (l : Lay) : (beginPositioning n l s).1.Good := by
  unfold Machine.beginPositioning
  repeat' split
  · exact h.touchLay fun _ => ⟨rfl, rfl, rfl⟩
  · exact State.Good.sequenceMove (State.Good.touchLay h (f := fun l => { l with target := some _ })
      fun _ => ⟨rfl, rfl, rfl⟩) _ _
  · exact h.checkFails _ _
  · exact h.checkFails _ _
  · exact h.touchLay fun _ => ⟨rfl, rfl, rfl⟩

theorem State.Good.releasingEnds {s : State} (h : s.Good) (n : Nat) : (releasingEnds n s).Good :=
  h.handOverInHand.touchLay fun l => by split <;> exact ⟨rfl, rfl, rfl⟩

theorem State.Good.beginReleasing {s : State} (h : s.Good) (n : Nat) : (beginReleasing n s).1.Good := by
  unfold Machine.beginReleasing
  split
  · exact h
  · exact h.releasingEnds n

theorem State.Good.beginTurning {s : State} (h : s.Good) (n : Nat) (l : Lay) : (beginTurning n l s).1.Good := by
  unfold Machine.beginTurning
  dsimp only
  repeat' split
  all_goals first
    | exact h
    | exact h.checkFails _ _
    | exact h.sequenceMove _ _

theorem State.Good.beginPushing {s : State} (h : s.Good) (n : Nat) : (beginPushing n s).1.Good := by
  unfold Machine.beginPushing
  split
  · exact h
  · exact h.setSeq _

theorem State.Good.beginPhase {s : State} (h : s.Good) {n : Nat} {l : Lay} {p : Phase} {e : Effect}
    (he : beginPhase n l p s = some e) : e.1.Good := by
  unfold Machine.beginPhase at he
  split at he <;> simp only [Option.some.injEq, reduceCtorEq] at he <;> subst he
  · exact h.beginPositioning _ _
  · exact h
  · exact h.beginReleasing _
  · exact h.beginTurning _ _
  · exact h.beginPushing _

theorem State.Good.markBegun {s : State} (h : s.Good) (p : Phase) : (s.markBegun p).Good := h.setSeq _

theorem State.Good.windBack {s : State} (h : s.Good) (n : Nat) : (windBack n s).1.Good := by
  unfold Machine.windBack
  split
  · exact (h.markBegun _).touchLay fun _ => ⟨rfl, rfl, rfl⟩
  · exact h.touchLay fun _ => ⟨rfl, rfl, rfl⟩

theorem State.Good.stoppingPhase {s : State} (h : s.Good) {n : Nat} {l : Lay} {p : Phase} {e : Effect}
    (he : stoppingPhase n l p s = some e) : e.1.Good := by
  unfold Machine.stoppingPhase at he
  (repeat' split at he) <;> first
    | exact h.beginPhase he
    | (simp only [Option.some.injEq] at he; subst he; exact h.windBack _)
    | simp at he

theorem State.Good.recordsUnknown {s : State} (h : s.Good) (k : Nat) (o : Order) : (s.recordsUnknown k o).Good := by
  unfold State.recordsUnknown
  dsimp only
  repeat' split
  all_goals first
    | exact h
    | exact h.setSeq _

theorem rotate_touches (q : Nat) (l : Lay) :
    (l.rotate q).state = l.state ∧ (l.rotate q).cause = l.cause ∧ (l.rotate q).heldFrom = l.heldFrom := by
  unfold Lay.rotate; dsimp only; split <;> exact ⟨rfl, rfl, rfl⟩

theorem State.Good.turnDone {s : State} (h : s.Good) (n : Nat) {f : Lay → Lay}
    (hf : ∀ l, (f l).state = l.state ∧ (f l).cause = l.cause ∧ (f l).heldFrom = l.heldFrom) : (turnDone n f s).Good :=
  h.touchLay fun l => by split <;> exact hf l

theorem State.Good.advancePhase {s : State} (h : s.Good) (n : Nat) (a b : Phase) (p : Bool) :
    (s.updateLay n (Lay.advancePhase a b p)).Good :=
  h.touchLay fun l => by unfold Lay.advancePhase; split <;> exact ⟨rfl, rfl, rfl⟩

theorem State.Good.releaseDone {s : State} (h : s.Good) (n : Nat) : (releaseDone n s).Good := by
  unfold Machine.releaseDone
  dsimp only
  split
  · exact State.Good.releasingEnds (h.setSeq _) n
  · exact h.setSeq _

theorem State.Good.pushOutDone {s : State} (h : s.Good) (n : Nat) : (pushOutDone n s).1.Good := by
  unfold Machine.pushOutDone
  split
  · exact h
  · refine State.Good.handOver ?_ _ _ _ _ _
    have h' : (s.setGauge (.known s.cell.params.gaugeMax true)).Good := h.setSeq _
    exact (h'.vacate .table n).updateLay fun l _ hl =>
      holdExplained_keep (setEff_holdExplained (st := .finishing) (by simp) hl) rfl rfl rfl

theorem State.Good.sequenceDone {s : State} (h : s.Good) (k : OrderKind) (n : Nat) (b : Bool) : (sequenceDone k n b s).1.Good := by
  unfold Machine.sequenceDone
  split
  · exact State.Good.advancePhase (h.setSeq _) _ _ _ _
  · exact State.Good.advancePhase (h.setSeq _) _ _ _ _
  · exact h.releaseDone n
  · exact h.turnDone n fun l => rotate_touches _ l
  · exact h.turnDone n fun _ => ⟨rfl, rfl, rfl⟩
  · exact h.pushOutDone n
  · exact h

theorem State.Good.sequenceEnds {s : State} (h : s.Good) (k : OrderKind) (n : Nat) (b : Bool) (how : End) :
    (sequenceEnds k n b how s).1.Good := by
  unfold Machine.sequenceEnds
  repeat' split
  · exact h.sequenceDone _ _ _
  · exact h
  · exact h

/-! ### Cell Control -/

theorem State.Good.detachCell {s : State} (h : s.Good) : s.detachCell.Good :=
  h.mapSlots (fun _ hx => mapSources_ok _ hx) (mapSources_tags _)

/-- A change of Cell Control's fields that leaves its state. -/
theorem State.Good.setCell {s : State} (h : s.Good) {c : CellControl} (hc : c.state = s.cell.state) : (s.setCell c).Good :=
  { h with halt := by have := h.halt; simpa [State.haltExplained, State.setCell, hc] using this }

theorem State.Good.enterState {s : State} (h : s.Good) (st : CellState) : (enterState st s).1.Good := by
  unfold Machine.enterState
  split
  · exact h
  · rename_i hs
    have hd : (s.delivery.resume st).records = s.delivery.records := by unfold Delivery.resume; split <;> rfl
    have hp : (s.delivery.resume st).pieces.map Piece.number = s.delivery.pieces.map Piece.number := by
      unfold Delivery.resume; split <;> simp [Function.comp_def]
    have hn : (s.delivery.resume st).nextPiece = s.delivery.nextPiece := by unfold Delivery.resume; split <;> rfl
    exact { h with
      records := by rw [hd]; exact h.records
      pieces := by
        refine ⟨by rw [hp]; exact h.pieces.1, fun p hm => ?_⟩
        obtain ⟨q, hq, he⟩ := List.mem_map.mp (hp ▸ List.mem_map_of_mem (f := Piece.number) hm)
        rw [hn, ← he]; exact h.pieces.2 q hq
      halt := by
        have : st ≠ .halted := by rintro rfl; simp [State.mayEnter] at hs
        simpa [State.haltExplained, CellControl.goTo] using this }

theorem State.Good.startFails {s : State} (h : s.Good) : (startFails s).1.Good := h.detachCell

theorem State.Good.haltTable {s : State} (h : s.Good) : (haltTable s).1.Good := by
  have h1 : (haltLay s).Good := by
    unfold haltLay; split
    · exact h.touchLay fun _ => ⟨rfl, rfl, rfl⟩
    · exact h
  unfold Machine.haltTable
  dsimp only
  split
  · exact (h1.setGate (withdraw_sound h1.gate)).takeDeferred
  · exact h1.setGate (withdraw_sound h1.gate)
  · exact h1

theorem State.Good.haltDrop {s : State} (h : s.Good) : (haltDrop s).1.Good :=
  h.mapSlots (fun x hx => ok_keep hx
    (refill_length (Nat.le_trans (List.length_filter_le _ _) hx.1)) rfl rfl rfl rfl rfl) fun _ => rfl

theorem State.Good.wakeTest {s : State} (h : s.Good) : (wakeTest s).1.Good := by
  unfold Machine.wakeTest
  repeat' split
  · exact h.startFails
  · exact h
  · exact h

theorem State.Good.settled {s : State} (h : s.Good) : (Machine.settled s).1.Good := by
  unfold Machine.settled
  split
  · exact h
  · exact h.setCell rfl

theorem State.Good.cellEnds {s : State} (h : s.Good) (tag : Option Nat) (how : End) : (cellEnds tag how s).1.Good := by
  unfold Machine.cellEnds
  repeat' split
  all_goals first
    | exact h
    | exact h.startFails

/-! ### Ends, copies and LOAD_SLOT's write -/

theorem State.Good.answer {s : State} (h : s.Good) (f : UFrame) : (s.answer f).Good := { h with }

theorem State.Good.takeCopy {s : State} (h : s.Good) (c : Copy) : (takeCopy c s).1.Good := by
  unfold Machine.takeCopy
  split
  · rename_i hl
    exact { h with copies := by simp [State.setLink]; omega }
  · exact { h with sFlags := by simp [State.setLink, RxFlags.summed, RxFlags.markOverrun] }

theorem orderDone_ok (o : Order) {x : Slot} (h : x.ok) : (Slot.orderDone o x).ok ∧ (Slot.orderDone o x).tags = x.tags := by
  unfold Slot.orderDone
  repeat' split
  all_goals exact ⟨ok_keep h h.1 rfl rfl rfl rfl rfl, rfl⟩

theorem State.Good.orderEnded {s : State} (h : s.Good) (k : Nat) (tag : Option Nat) (o : Order) (how : End) :
    (orderEnded k tag o how s).1.Good := by
  unfold Machine.orderEnded
  dsimp only
  split
  · exact h.setSlot (orderDone_ok o (h.slot k)).1 (orderDone_ok o (h.slot k)).2
  · exact h.recordsUnknown k o

theorem State.Good.endFor {s : State} (h : s.Good) (k : Nat) (tag : Option Nat) (kind : OrderKind) (src : Source) (how : End) :
    (endFor k tag kind src how s).1.Good := by
  unfold Machine.endFor
  split
  · exact h.sequenceEnds _ _ _ _
  · exact h.arbiterEnds _ _ _
  · exact h.gateEnds _ _ _ _ _
  · exact h.deliverEnds _ _ _
  · split
    · exact h.cellEnds _ _
    · exact h
  · exact h
  · exact h.answer _

theorem want_ok (v : LampState) {x : Slot} (h : x.ok) : (x.want v).ok := ok_keep h h.1 rfl rfl rfl rfl rfl

/-- A slot with nothing in flight and no announced STOP follows its tags whatever they are. -/
theorem idle_ok {x : Slot} (h1 : x.posted.length ≤ 4) (h2 : x.config = none ↔ x.state = .unused) (h3 : x.nextTag < 16)
    (h4 : x.inFlight = none) (h5 : x.announced = none) : x.ok :=
  ⟨h1, h2, h3, by simp [h4], by simp [h5], by simp [Slot.tagsFollow, h4]⟩

theorem load_ok (c : Option SlotConfig) {x : Slot} (h : x.ok) : (x.load c).ok ∧ (x.load c).tags = [] := by
  have ht := h.2.2.1
  cases c with
  | none => exact ⟨idle_ok (by simp [Slot.load, Slot.unused]) (by simp [Slot.load, Slot.unused]) ht rfl rfl, rfl⟩
  | some c =>
    unfold Slot.load
    dsimp only
    split <;> exact ⟨idle_ok (by simp [Slot.want, Slot.unused]) (by simp [Slot.want, Slot.unused]) ht rfl rfl, rfl⟩

theorem cleared_ok {x : Slot} (h : x.ok) : x.cleared.ok := idle_ok (by simp [Slot.cleared]) h.2.1 h.2.2.1 rfl rfl

/-- A slot without orders holds no tag. -/
theorem tags_of_orders {x : Slot} (h : x.orders = []) : x.tags = [] := by
  simp only [Slot.orders, List.append_eq_nil_iff] at h
  have h1 : x.inFlight = none := by simpa using h.1.1.1
  have h2 : x.announced = none := by simpa using h.1.1.2
  simp [Slot.tags, Slot.flightTags, h1, h2]

theorem State.Good.writeSlot {s : State} (h : s.Good) (k : Nat) (c : Option SlotConfig) : (writeSlot k c s).1.Good := by
  unfold Machine.writeSlot
  dsimp only
  split
  · rename_i ho
    exact h.setSlot (load_ok c (h.slot k)).1 ((load_ok c (h.slot k)).2.trans (tags_of_orders ho).symm)
  · exact h.withdrawSlot (cleared_ok (h.slot k)) fun n hn hf => absurd hn hf

/-! ### What waits for a condition -/

theorem State.Good.boundaryRule {s : State} (h : s.Good) {e : Effect} (he : boundaryRule s = some e) : e.1.Good := by
  simp only [Machine.boundaryRule, Option.map_eq_some_iff] at he
  obtain ⟨n, -, rfl⟩ := he
  split
  · exact h.takeAbandon n
  · exact h.hold n _

theorem State.Good.lowerRule {s : State} (h : s.Good) {e : Effect} (he : lowerRule s = some e) : e.1.Good := by
  unfold Machine.lowerRule at he
  split at he
  · simp at he
  · rename_i n hn
    have hm : ∀ l, s.lay? n = some l → l.state ≠ .held := by
      intro l hl
      have := (Option.filter_eq_some_iff.mp hn).2
      simp only [hl, Option.any_some, Bool.and_eq_true, decide_eq_true_eq] at this
      simp [this.1.1]
    split at he
    · simp only [Option.some.injEq] at he; subst he
      exact h.updateLay fun l hl hx => holdExplained_go hx (hm l hl) (by simp) rfl rfl
    · split at he
      · simp only [Option.some.injEq] at he; subst he; exact h
      · simp at he

theorem State.Good.fillRule {s : State} (h : s.Good) {e : Effect} (he : fillRule s = some e) : e.1.Good := by
  unfold Machine.fillRule at he; (try dsimp only at he); (repeat' split at he) <;> first
    | (simp at he; done)
    | (simp only [Option.some.injEq] at he; subst he; exact { h with })

theorem State.Good.jogRule {s : State} (h : s.Good) {e : Effect} (he : jogRule s = some e) : e.1.Good := by
  unfold Machine.jogRule at he
  split at he
  · simp at he
  · rename_i n hn
    have hj : ∀ l, s.lay? n = some l → l.state ≠ .held := by
      intro l hl
      have := (Option.filter_eq_some_iff.mp hn).2
      simp only [State.jogWaits, hl, Option.any_some, Bool.and_eq_true, decide_eq_true_eq] at this
      simp [this.1.1.1]
    have hu : (s.updateLay n fun l => { l with state := .waiting }).Good :=
      h.updateLay fun l hl hx => holdExplained_go hx (hj l hl) (by simp) rfl rfl
    dsimp only at he
    (repeat' split at he) <;> first
      | (simp at he; done)
      | (simp only [Option.some.injEq] at he; subst he; first | exact hu | exact h)

theorem State.Good.begunRule {s : State} (h : s.Good) {e : Effect} (he : begunRule s = some e) : e.1.Good := by
  unfold Machine.begunRule at he; split at he
  · simp only [Option.some.injEq] at he; subst he; exact h.setSeq _
  · simp at he

theorem State.Good.phaseRule {s : State} (h : s.Good) {e : Effect} (he : phaseRule s = some e) : e.1.Good := by
  unfold Machine.phaseRule at he
  split at he
  · simp at he
  · split at he
    · simp at he
    · split at he
      · simp only [Option.bind_eq_some_iff] at he
        obtain ⟨p, -, he⟩ := he
        split at he
        · exact (h.markBegun p).beginPhase he
        · split at he
          · exact h.stoppingPhase he
          · simp at he
      · simp at he

theorem State.Good.stepRule {s : State} (h : s.Good) {e : Effect} (he : stepRule s = some e) : e.1.Good := by
  unfold Machine.stepRule at he; (repeat' split at he) <;> first
    | (simp at he; done)
    | (simp only [Option.some.injEq] at he; subst he; first | exact h | exact h.evalStep _ _ _)

theorem State.Good.deliverRule {s : State} (h : s.Good) {e : Effect} (he : deliverRule s = some e) : e.1.Good := by
  unfold Machine.deliverRule at he; (repeat' split at he) <;> first
    | (simp at he; done)
    | (simp only [Option.some.injEq] at he; subst he; exact h.setPieces (modifyFirst_numbers _ (by simp +contextual [eq_comm]) _))

theorem State.Good.presentRule {s : State} (h : s.Good) {e : Effect} (he : presentRule s = some e) : e.1.Good := by
  unfold Machine.presentRule at he
  split at he
  · split at he
    · rename_i n k _ _ l hl
      split at he
      · rename_i hc
        simp only [Option.some.injEq] at he
        subst he
        refine (h.setZone _ _).updateLay fun l' hl' hx => ?_
        have : s.lay? _ = some l' := hl'
        rw [hl] at this
        simp only [Option.some.injEq] at this
        subst this
        exact holdExplained_go hx (by simp [hc.2.2.1]) (by simp) rfl rfl
      · simp at he
    · simp at he
  · simp at he

theorem dueMove_unheld {s : State} {m : ZoneId × ZoneId} {n : Nat} (hd : s.dueMove = some (m, n)) :
    ∀ l, s.lay? n = some l → l.state ≠ .held := by
  intro l hl
  unfold State.dueMove at hd
  split at hd
  · obtain ⟨q, -, hq⟩ := List.exists_of_findSome?_eq_some hd
    simp only [Option.map_eq_some_iff] at hq
    obtain ⟨n', hr, hq⟩ := hq
    simp only [Prod.mk.injEq] at hq
    obtain ⟨rfl, rfl⟩ := hq
    unfold State.requestLay at hr
    split at hr
    · have := (Option.filter_eq_some_iff.mp hr).2
      simp only [hl, Option.any_some, State.mayMove, Bool.and_eq_true, Bool.or_eq_true, decide_eq_true_eq] at this
      rcases this.1.1 with h1 | h1
      · simp [h1]
      · simp [h1.1]
    · simp at hr
  · simp at hd

theorem State.Good.permitOrGrantRule {s : State} (h : s.Good) {e : Effect} (he : permitOrGrantRule s = some e) : e.1.Good := by
  have hc : State.Good { s with choices := s.choices + 1 } := { h with }
  unfold Machine.permitOrGrantRule at he
  split at he
  · rename_i hp _; simp only [Option.some.injEq] at he; subst he; exact h.issuePermit _ (duePermit_knife hp)
  · rename_i hd; simp only [Option.some.injEq] at he; subst he; exact h.grantMove _ (dueMove_unheld hd)
  · rename_i hp hd
    simp only [Option.some.injEq] at he
    subst he
    split
    · exact hc.issuePermit _ (duePermit_knife hp)
    · exact hc.grantMove _ (dueMove_unheld hd)
  · simp at he

theorem State.Good.cellRule {s : State} (h : s.Good) {e : Effect} (he : cellRule s = some e) : e.1.Good := by
  unfold Machine.cellRule at he; (repeat' split at he) <;> first
    | (simp at he; done)
    | (simp only [Option.some.injEq] at he; subst he; first | exact h | exact h.settled | exact h.setCell rfl)

theorem State.Good.idleRule {s : State} (h : s.Good) {e : Effect} (he : idleRule s = some e) : e.1.Good := by
  unfold Machine.idleRule at he; (repeat' split at he) <;> first
    | (simp at he; done)
    | (simp only [Option.some.injEq] at he; subst he; exact h.setCell rfl)

theorem State.Good.lampRule {s : State} (h : s.Good) {e : Effect} (he : lampRule s = some e) : e.1.Good := by
  unfold Machine.lampRule at he
  split at he
  · simp at he
  · simp only [Option.some.injEq] at he; subst he; exact h.setSlot (want_ok _ (h.slot _))

theorem State.Good.sendRule {s : State} (h : s.Good) {e : Effect} (he : sendRule s = some e) : e.1.Good := by
  simp only [Machine.sendRule, Option.map_eq_some_iff] at he
  obtain ⟨s', he, rfl⟩ := he
  obtain ⟨k, -, he⟩ := List.exists_of_findSome?_eq_some he
  exact h.slotSend he

theorem State.Good.settle {s : State} (h : s.Good) : (settle s).1.Good := by
  unfold Machine.settle
  split
  · rename_i s' tasks hs
    refine settleRules_induction (P := State.Good) (e := (s', tasks)) hs ?_
    intro r hr e he
    simp only [settleRules, List.mem_cons, List.not_mem_nil, or_false] at hr
    rcases hr with rfl | rfl | rfl | rfl | rfl | rfl | rfl | rfl | rfl | rfl | rfl | rfl | rfl | rfl
    · exact h.deliverRule he
    · exact h.boundaryRule he
    · exact h.lowerRule he
    · exact h.fillRule he
    · exact h.jogRule he
    · exact h.begunRule he
    · exact h.phaseRule he
    · exact h.stepRule he
    · exact h.presentRule he
    · exact h.permitOrGrantRule he
    · exact h.cellRule he
    · exact h.idleRule he
    · exact h.lampRule he
    · exact h.sendRule he
  · exact h

/-! ### A whole event -/

theorem State.Good.perform {s : State} (h : s.Good) (t : Task) : (perform t s).1.Good := by
  cases t with
  | raise k j d => exact h.takeEvent k j d
  | haltTable => exact h.haltTable
  | haltDrop => exact h.haltDrop
  | haltStop => exact h
  | ended k tag o how => exact h.orderEnded k tag o how
  | endFor k tag kind src how => exact h.endFor k tag kind src how
  | post k o => exact h.postOrder k o
  | moveEnded n => exact h.moveEnded n
  | giveUp n => exact h.giveUp n
  | execUnheld n => exact h.execUnheld n
  | drainUnheld n => exact h.drainUnheld n
  | finishTest n => exact h.finishTest n
  | unbidden d => exact h.unbidden d
  | lockOutOrder => exact h
  | enter st => exact h.enterState st
  | parkTest => exact h
  | wakeTest => exact h.wakeTest
  | writeSlot k c => exact h.writeSlot k c
  | copy c => exact h.takeCopy c
  | bind n e => exact h.bindLay n e
  | fillEnds => exact h.fillEnds
  | release n => exact h.releaseLay n
  | recheckFailed n k d => exact h.recheckFailed n k d
  | stopAsked => exact h
  | settle => exact h.settle

theorem State.Good.setAgenda {s : State} (h : s.Good) (l : List Task) : State.Good { s with agenda := l } := { h with }

theorem State.Good.complete {e : Effect} (h : e.1.Good) : (complete e).Good :=
  drainAgenda_induction (P := State.Good) (fun t _ ht => ht.perform t) (fun _ ts ht => ht.setAgenda ts) _ _ _ (h.setAgenda _)

end Sys2Proof.Machine
end

