-- ==== Sys2Proof/Laws/Operands.lean ====
section
/-! SUPPORT. The encodings of the links read back: words of bytes, flags and codes, carried values, steps, and the envelope's checks. -/

namespace Sys2Proof.Machine

/-! ### Words -/

@[simp] theorem word16_parts (v : BitVec 16) : word16 (v.extractLsb' 8 8) (v.extractLsb' 0 8) = v := by
  unfold word16
  apply BitVec.eq_of_getLsbD_eq
  intro i hi
  simp only [BitVec.getLsbD_append, BitVec.getLsbD_extractLsb']
  by_cases h : i < 8
  · simp [h]
  · simp only [h, if_false, show 8 + (i - 8) = i by omega, show i - 8 < 8 by omega]
    simp

@[simp] theorem word24_parts (v : BitVec 24) :
    word24 (v.extractLsb' 16 8) (v.extractLsb' 8 8) (v.extractLsb' 0 8) = v := by
  unfold word24
  apply BitVec.eq_of_getLsbD_eq
  intro i hi
  simp only [BitVec.getLsbD_append, BitVec.getLsbD_extractLsb']
  by_cases h : i < 8
  · simp [h]
  · by_cases h2 : i - 8 < 8
    · simp [h, h2, show 8 + (i - 8) = i by omega]
    · simp [h, h2, show 16 + (i - 8 - 8) = i by omega]; omega

@[simp] theorem word32_parts (v : BitVec 32) :
    word32 (v.extractLsb' 24 8) (v.extractLsb' 16 8) (v.extractLsb' 8 8) (v.extractLsb' 0 8) = v := by
  unfold word32
  apply BitVec.eq_of_getLsbD_eq
  intro i hi
  simp only [BitVec.getLsbD_append, BitVec.getLsbD_extractLsb']
  by_cases h : i < 8
  · simp [h]
  · by_cases h2 : i - 8 < 8
    · simp [h, h2, show 8 + (i - 8) = i by omega]
    · by_cases h3 : i - 8 - 8 < 8
      · simp [h, h2, h3, show 16 + (i - 8 - 8) = i by omega]
      · simp [h, h2, h3, show 24 + (i - 8 - 8 - 8) = i by omega]; omega

theorem toNat_byteOf {n : Nat} (h : n < 256) : (byteOf n).toNat = n := by simp [byteOf]; omega

theorem toNat_word16 {n : Nat} (h : n < 65536) : (BitVec.ofNat 16 n).toNat = n := by simp; omega

theorem toNat_word32 {n : Nat} (h : n < 4294967296) : (BitVec.ofNat 32 n).toNat = n := by simp; omega

@[simp] theorem flagOf_flagByte (b : Bool) : flagOf (flagByte b) = some b := by cases b <;> rfl

/-! ### Carried values and steps -/

@[simp] theorem lowBits_presenceSet (l : List Bool) : lowBits l.length (presenceSet l) = l := by
  induction l with
  | nil => rfl
  | cons b l ih =>
    have h : (1 + 2 * presenceSet l) / 2 = presenceSet l := by omega
    cases b <;> simp [lowBits, presenceSet, ih, h]

theorem presenceSet_lt (l : List Bool) : presenceSet l < 2 ^ l.length := by
  induction l with
  | nil => simp [presenceSet]
  | cons b l ih => cases b <;> simp [presenceSet, Nat.pow_succ] <;> omega

theorem parseCarried_values (l : List (Option (BitVec 32))) :
    parseCarried (l.map Option.isSome) (l.flatMap fun v => (v.map be32).getD []) = some l := by
  induction l with
  | nil => rfl
  | cons v l ih => cases v <;> simp [parseCarried, be32, ih]

theorem parseRawSteps_steps (l : List RawStep) : parseRawSteps l.length (l.flatMap encodeRawStep) = some l := by
  induction l with
  | nil => rfl
  | cons s l ih => simp [parseRawSteps, encodeRawStep, be32, ih]

@[simp] theorem parseSlotLoad_encode (c : SlotLoad) : parseSlotLoad (encodeSlotLoad c) = some c := by
  simp [encodeSlotLoad, parseSlotLoad, be16, be24]

@[simp] theorem parseJobLoad_encode (j : JobLoad) : parseJobLoad (encodeJobLoad j) = some j := by
  simp [encodeJobLoad, parseJobLoad, be16, be32]

theorem capsOf_capsByte (c : Caps) : capsOf (capsByte c) = some c := by
  obtain ⟨a, b, c, d⟩ := c; cases a <;> cases b <;> cases c <;> cases d <;> decide

/-- A request whose data or steps fit is at most 240 bytes. -/
theorem encodeRequest_length (r : Request) (h1 : ∀ data, r = .echo data → data.length ≤ 239)
    (h2 : ∀ p steps, r = .loadProgram p steps → steps.length ≤ 47) : (encodeRequest r).length ≤ 240 := by
  have hc : ∀ l : List (Option (BitVec 32)), (l.flatMap fun v => (v.map be32).getD []).length ≤ 4 * l.length := by
    intro l
    induction l with
    | nil => simp
    | cons v l ih =>
      rw [List.flatMap_cons, List.length_append, List.length_cons]
      cases v <;> simp only [be32, Option.map_none, Option.map_some, Option.getD_none, Option.getD_some, List.length_cons,
        List.length_nil] <;> omega
  have hs : ∀ l : List RawStep, (l.flatMap encodeRawStep).length = 5 * l.length := by
    intro l
    induction l with
    | nil => rfl
    | cons s l ih =>
      rw [List.flatMap_cons, List.length_append, ih]
      simp only [encodeRawStep, be32, List.length_cons, List.length_nil]
      omega
  cases r with
  | echo d => have := h1 d rfl; simp [encodeRequest, requestArgs]; omega
  | loadProgram p steps =>
    have := h2 p steps rfl
    simp only [encodeRequest, requestArgs, List.length_cons, hs]; omega
  | loadCell v =>
    have := hc (cellLoadList v)
    simp only [encodeRequest, requestArgs, List.length_cons, List.length_append]
    simp [cellLoadList, nat16, be16] at this ⊢
    omega
  | loadSlot s c => cases c <;> simp [encodeRequest, requestArgs, encodeSlotLoad, be16, be24]
  | _ => simp [encodeRequest, requestArgs, encodeJobLoad, be16, be32]

/-! ### What a payload's code selects: one lemma a code, so that no proof unfolds the whole table -/

theorem parseOrder_present (a b c d : Byte) :
    parseOrder [4, a, b, c, d] = (some (OrderKind.present (word32 a b c d).toNat)).filter orderInRange := rfl

theorem parseOrder_jog (a b : Byte) : parseOrder [6, a, b] = (some (OrderKind.jog (word16 a b).toNat)).filter orderInRange := rfl

theorem parseOrder_move (a b c d : Byte) :
    parseOrder [8, a, b, c, d] = (some (OrderKind.move (word32 a b c d).toNat)).filter orderInRange := rfl

theorem parseOrder_clamp (l : Byte) : parseOrder [10, l] = (some (OrderKind.clamp l.toNat)).filter orderInRange := rfl

theorem parseOrder_rotate (q : Byte) : parseOrder [13, q] = (some (OrderKind.rotate q.toNat)).filter orderInRange := rfl

theorem parseReport_identAns (k b : Byte) : parseReport [0, k, b] =
    (stationKindOf k.toNat).bind fun kind => (capsOf b).map fun caps => .identAns kind caps := rfl

theorem parseReport_done (a b c d : Byte) : parseReport [1, a, b, c, d] = some (.done (word32 a b c d)) := rfl

theorem parseReport_pos (a b c d : Byte) : parseReport [3, a, b, c, d] = some (.pos (word32 a b c d)) := rfl

theorem parseReport_fault (f : Byte) : parseReport [5, f] = some (.fault f) := rfl

theorem parseRequest_echo (data : List Byte) :
    parseRequest (0 :: data) = if data.length ≤ 238 then some (.echo data) else none := rfl

theorem parseRequest_read (view a1 a0 c : Byte) :
    parseRequest [1, view, a1, a0, c] = (flagOf c).map fun clear => .read view (word16 a1 a0) clear := rfl

theorem parseRequest_loadCell (p1 p0 : Byte) (rest : List Byte) : parseRequest (2 :: p1 :: p0 :: rest) =
    if (word16 p1 p0).toNat < 2048 then
      ((parseCarried (lowBits 11 (word16 p1 p0).toNat) rest).bind cellLoadOf).map .loadCell else none := rfl

theorem parseRequest_unloadSlot (slot : Byte) : parseRequest [3, slot, 0] = some (.loadSlot slot none) := rfl

theorem parseRequest_loadSlot (slot : Byte) (rest : List Byte) :
    parseRequest (3 :: slot :: 1 :: rest) = (parseSlotLoad rest).map fun c => .loadSlot slot (some c) := rfl

theorem parseRequest_loadSeverity (kind presence cls notice : Byte) :
    parseRequest [4, kind, presence, cls, notice] = parseSeverity kind presence cls notice := rfl

theorem parseRequest_loadProgram (program count : Byte) (rest : List Byte) : parseRequest (5 :: program :: count :: rest) =
    (parseRawSteps count.toNat rest).map fun steps => .loadProgram program steps := rfl

theorem parseRequest_eraseProgram (program : Byte) : parseRequest [6, program] = some (.eraseProgram program) := rfl

theorem parseRequest_loadJob (args : List Byte) : parseRequest (7 :: args) = (parseJobLoad args).map .loadJob := rfl

theorem parseRequest_dropJob (j1 j0 : Byte) : parseRequest [8, j1, j0] = some (.dropJob (word16 j1 j0)) := rfl

theorem parseRequest_cellControl (action : Byte) : parseRequest [9, action] = some (.cellControl action) := rfl

theorem parseRequest_layControl (lay action : Byte) : parseRequest [10, lay, action] = some (.layControl lay action) := rfl

theorem parseRequest_takeDelivery : parseRequest [11] = some .takeDelivery := rfl

theorem parseRequest_clearEvents (f3 f2 f1 f0 c3 c2 c1 c0 : Byte) :
    parseRequest [12, f3, f2, f1, f0, c3, c2, c1, c0] = some (.clearEvents (word32 f3 f2 f1 f0) (word32 c3 c2 c1 c0)) := rfl

/-! ### What parses is the encoding of what it is parsed as: check 6 fails exactly the payloads that nothing in range is encoded as -/

theorem be16_word16 (a b : Byte) : be16 (word16 a b) = [a, b] := by
  have h1 : (word16 a b).extractLsb' 8 8 = a := by
    unfold word16; apply BitVec.eq_of_getLsbD_eq; intro i hi
    simp only [BitVec.getLsbD_append, BitVec.getLsbD_extractLsb', hi, decide_true, Bool.true_and, show ¬ 8 + i < 8 by omega,
      if_false, Nat.add_sub_cancel_left]
  have h2 : (word16 a b).extractLsb' 0 8 = b := by
    unfold word16; apply BitVec.eq_of_getLsbD_eq; intro i hi
    simp only [BitVec.getLsbD_append, BitVec.getLsbD_extractLsb', hi, decide_true, Bool.true_and, Nat.zero_add, if_true]
  simp [be16, h1, h2]

theorem be32_word32 (a b c d : Byte) : be32 (word32 a b c d) = [a, b, c, d] := by
  have h : ∀ k i : Nat, i < 8 → ((word32 a b c d).extractLsb' k 8).getLsbD i =
      if k + i < 8 then d.getLsbD (k + i) else if k + i - 8 < 8 then c.getLsbD (k + i - 8)
        else if k + i - 8 - 8 < 8 then b.getLsbD (k + i - 8 - 8) else a.getLsbD (k + i - 8 - 8 - 8) := by
    intro k i hi
    unfold word32
    simp only [BitVec.getLsbD_append, BitVec.getLsbD_extractLsb', hi, decide_true, Bool.true_and]
  have h1 : (word32 a b c d).extractLsb' 24 8 = a := by
    apply BitVec.eq_of_getLsbD_eq; intro i hi
    rw [h _ _ hi, if_neg (by omega), if_neg (by omega), if_neg (by omega), show 24 + i - 8 - 8 - 8 = i by omega]
  have h2 : (word32 a b c d).extractLsb' 16 8 = b := by
    apply BitVec.eq_of_getLsbD_eq; intro i hi
    rw [h _ _ hi, if_neg (by omega), if_neg (by omega), if_pos (by omega), show 16 + i - 8 - 8 = i by omega]
  have h3 : (word32 a b c d).extractLsb' 8 8 = c := by
    apply BitVec.eq_of_getLsbD_eq; intro i hi
    rw [h _ _ hi, if_neg (by omega), if_pos (by omega), show 8 + i - 8 = i by omega]
  have h4 : (word32 a b c d).extractLsb' 0 8 = d := by
    apply BitVec.eq_of_getLsbD_eq; intro i hi
    rw [h _ _ hi, if_pos (by omega), show 0 + i = i by omega]
  simp [be32, h1, h2, h3, h4]

theorem byteOf_toNat (b : Byte) : byteOf b.toNat = b := by simp [byteOf]

theorem nat16_word16 (a b : Byte) : nat16 (word16 a b).toNat = [a, b] := by simp [nat16, be16_word16]

theorem nat32_word32 (a b c d : Byte) : nat32 (word32 a b c d).toNat = [a, b, c, d] := by simp [nat32, be32_word32]

theorem flagByte_of_flagOf {b : Byte} {v : Bool} (h : flagOf b = some v) : flagByte v = b := by
  unfold flagOf at h; split at h
  · cases h; simp_all [flagByte]
  · split at h <;> cases h; simp_all [flagByte]

theorem code_of_index {α : Type} (of : Nat → Option α) (index : α → Nat) (hi : ∀ n x, of n = some x → index x = n)
    {b : Byte} {x : α} (h : of b.toNat = some x) : byteOf (index x) = b := by
  rw [hi _ _ h, byteOf_toNat]

theorem index_of_lampOf (n : Nat) (x : LampState) (h : lampOf n = some x) : lampIndex x = n := by
  unfold lampOf at h; split at h <;> cases h <;> rfl

theorem index_of_zoneOf (n : Nat) (x : ZoneId) (h : zoneOf n = some x) : zoneIndex x = n := by
  unfold zoneOf at h; split at h <;> cases h <;> rfl

theorem index_of_destinationOf (n : Nat) (x : Destination) (h : destinationOf n = some x) : destinationIndex x = n := by
  unfold destinationOf at h; split at h <;> cases h <;> rfl

theorem index_of_reasonOf (n : Nat) (x : Reason) (h : reasonOf n = some x) : reasonIndex x = n := by
  unfold reasonOf at h; split at h <;> cases h <;> rfl

theorem index_of_stationKindOf (n : Nat) (x : StationKind) (h : stationKindOf n = some x) :
    StationKind.index x = n := by
  unfold stationKindOf at h; split at h <;> cases h <;> rfl

theorem capsByte_of_capsOf : ∀ b : Byte, ∀ c, capsOf b = some c → capsByte c = b := by decide +revert

theorem orderOf_none {n : Nat} (args : List Byte) (h : 18 ≤ n) : orderOf n args = none := by
  obtain ⟨k, rfl⟩ := Nat.exists_eq_add_of_le' h
  match args with
  | [] | [_] | [_, _] | [_, _, _] | [_, _, _, _] | _ :: _ :: _ :: _ :: _ :: _ => rfl

theorem args_of_orderOf {n : Nat} {args : List Byte} {o : OrderKind} (h : orderOf n args = some o) :
    orderCode o = n ∧ orderArgs o = args := by
  have hn : n < 18 := by
    rcases Nat.lt_or_ge n 18 with hn | hn
    · exact hn
    · rw [orderOf_none args hn] at h; cases h
  match n, hn with
  | 0, _ | 1, _ | 2, _ | 3, _ | 4, _ | 5, _ | 6, _ | 7, _ | 8, _ | 9, _ | 10, _ | 11, _ | 12, _ | 13, _ | 14, _ | 15, _
  | 16, _ | 17, _ =>
    rcases args with _ | ⟨a, _ | ⟨b, _ | ⟨c, _ | ⟨d, _ | ⟨e, r⟩⟩⟩⟩⟩ <;>
    first
      | (cases h; done)
      | (cases h; exact ⟨rfl, rfl⟩)
      | (cases h; exact ⟨rfl, nat16_word16 a b⟩)
      | (cases h; exact ⟨rfl, nat32_word32 a b c d⟩)
      | (cases h; exact ⟨rfl, congrArg (fun b => [b]) (byteOf_toNat a)⟩)
      | (obtain ⟨x, hx, rfl⟩ := Option.map_eq_some_iff.mp h
         first
          | exact ⟨rfl, congrArg (fun b => [b]) (flagByte_of_flagOf hx)⟩
          | exact ⟨rfl, congrArg (fun b => [b]) (code_of_index _ _ index_of_lampOf hx)⟩
          | exact ⟨rfl, congrArg (fun b => [b]) (code_of_index _ _ index_of_destinationOf hx)⟩)
      | (obtain ⟨x, hx, h2⟩ := Option.bind_eq_some_iff.mp h
         obtain ⟨y, hy, rfl⟩ := Option.map_eq_some_iff.mp h2
         exact ⟨rfl, by rw [orderArgs, code_of_index _ _ index_of_zoneOf hx, code_of_index _ _ index_of_zoneOf hy]⟩)

theorem encodeOrder_of_parse {p : List Byte} {o : OrderKind} (h : parseOrder p = some o) :
    encodeOrder o = p ∧ orderInRange o = true := by
  cases p with
  | nil => cases h
  | cons c args =>
    obtain ⟨h1, h2⟩ := Option.filter_eq_some_iff.mp h
    obtain ⟨h3, h4⟩ := args_of_orderOf h1
    exact ⟨by rw [encodeOrder, h3, h4, byteOf_toNat], h2⟩

theorem encodeReport_of_parse {p : List Byte} {r : Report} (h : parseReport p = some r) : encodeReport r = p := by
  cases p with
  | nil => cases h
  | cons c args =>
    have key : reportCode r = c.toNat ∧ reportArgs r = args := by
      unfold parseReport at h
      dsimp only at h
      generalize c.toNat = n at h ⊢
      match n, h with
      | 0, h | 1, h | 2, h | 3, h | 4, h | 5, h | 6, h | 7, h | 8, h | n + 9, h =>
      rcases args with _ | ⟨a, _ | ⟨b, _ | ⟨c, _ | ⟨d, _ | ⟨e, r⟩⟩⟩⟩⟩ <;>
      first
        | (cases h; done)
        | (cases h; exact ⟨rfl, rfl⟩)
        | (cases h; exact ⟨rfl, be32_word32 a b c d⟩)
        | (obtain ⟨x, hx, rfl⟩ := Option.map_eq_some_iff.mp h
           first
            | exact ⟨rfl, congrArg (fun b => [b]) (flagByte_of_flagOf hx)⟩
            | exact ⟨rfl, congrArg (fun b => [b]) (code_of_index _ _ index_of_reasonOf hx)⟩)
        | (obtain ⟨x, hx, h2⟩ := Option.bind_eq_some_iff.mp h
           obtain ⟨y, hy, rfl⟩ := Option.map_eq_some_iff.mp h2
           first
            | exact ⟨rfl, by rw [reportArgs, flagByte_of_flagOf hx, flagByte_of_flagOf hy]⟩
            | exact ⟨rfl, by rw [reportArgs, code_of_index _ _ index_of_stationKindOf hx, capsByte_of_capsOf _ _ hy]⟩)
    rw [encodeReport, key.1, key.2, byteOf_toNat]

theorem sizeOf?_getD (n : Nat) : (sizeOf? n).getD 0 = n := by
  unfold sizeOf?; split <;> simp_all

theorem encodeTicket_of_parse {p : List Byte} {t : Ticket} (h : parseTicket p = some t) :
    encodeTicket t = p ∧ ticketInRange t = true := by
  unfold parseTicket at h
  split at h
  · rename_i f
    simp only at h
    split at h
    all_goals first
      | (cases h; done)
      | skip
    all_goals
      rename_i hf
      obtain ⟨h1, h2⟩ := Option.filter_eq_some_iff.mp h
      cases h1
      refine ⟨?_, h2⟩
      simp only [encodeTicket, sizeOf?_getD, nat16_word16, nat32_word32, faceCode]
      rw [← hf, byteOf_toNat]
      rfl
  · cases h

/-! ### The envelope (R173) -/

/-- A frame whose bytes are its envelope's passes checks 1 to 3 where its payload is at most 240 bytes. -/
theorem receive_bytes (port : Port) (f : Envelope) (h : f.payload.length ≤ 240) :
    receive port true f.bytes = checkKind port f.kind.toNat f.address.toNat f.tag f.payload := by
  have hl : (byteOf f.payload.length).toNat = f.payload.length := toNat_byteOf (by omega)
  simp only [Envelope.bytes, be16, List.cons_append]
  unfold receive
  simp only [hl, List.length_append, List.length_cons, List.length_nil, List.take_left, List.drop_left]
  rw [if_neg (by simp), if_neg (by simp [be16]), if_neg (by omega)]

/-- Checks 2 and 3 on a frame that passes check 1. -/
theorem receive_delimited (port : Port) (kind address tag length hi lo : Byte) (payload : List Byte)
    (h : payload.length = length.toNat) : receive port true (kind :: address :: tag :: length :: (payload ++ [hi, lo])) =
      if be16 (crc (kind :: address :: tag :: length :: payload)) ≠ [hi, lo] then .rejected 2 (some .check)
      else if 240 < length.toNat then .rejected 3 (some .length)
      else checkKind port kind.toNat address.toNat tag payload := by
  unfold receive
  simp [← h]

end Sys2Proof.Machine
end

