-- ==== Sys2Proof/Laws/Settle.lean ====
section
/-! SUPPORT. What waits for a condition is taken up until nothing applies: the order of the rules, and that a completed event has
settled (R142, log 4). -/

namespace Sys2Proof.Machine

/-- The first rule that applies is taken, and the rules are tried again after it. -/
theorem settle_first {s t : State} {work : List Task} {before after : List (State → Option Effect)} {r : State → Option Effect}
    (hr : settleRules = before ++ r :: after) (hb : ∀ q ∈ before, q s = none) (ht : r s = some (t, work)) :
    settle s = (t, work ++ [.settle]) := by
  unfold settle
  rw [hr, List.findSome?_append, List.findSome?_eq_none_iff.mpr hb]
  simp [ht]

/-- Where no rule applies nothing is done. -/
theorem settle_none {s : State} (h : ∀ r ∈ settleRules, r s = none) : settle s = (s, []) := by
  unfold settle; rw [List.findSome?_eq_none_iff.mpr h]

/-- Work that ends with a settling leaves, once it is all done, a state in which no rule applies. -/
theorem drainAgenda_settled (n : Nat) (ts : List Task) (s : State)
    (h : (drainAgenda n (ts ++ [.settle]) s).agenda = []) : ∀ r ∈ settleRules, r (drainAgenda n (ts ++ [.settle]) s) = none := by
  induction n generalizing ts s with
  | zero => cases ts <;> simp [drainAgenda] at h
  | succ n ih =>
    cases ts with
    | cons t ts =>
      have := ih ((perform t s).2 ++ ts) (perform t s).1
      simp only [List.append_assoc] at this
      exact this h
    | nil =>
      simp only [List.nil_append, drainAgenda, perform, List.append_nil] at h ⊢
      cases hr : settleRules.findSome? fun r => r s with
      | none =>
        have hs : settle s = (s, []) := by unfold settle; rw [hr]
        rw [hs] at h ⊢
        cases n <;> exact List.findSome?_eq_none_iff.mp hr
      | some e =>
        have hs : settle s = (e.1, e.2 ++ [.settle]) := by unfold settle; rw [hr]
        rw [hs] at h ⊢
        exact ih e.2 e.1 h

/-- An event whose work is all done has settled: no rule applies any more. -/
theorem complete_settled (e : Effect) (h : (complete e).agenda = []) : ∀ r ∈ settleRules, r (complete e) = none :=
  drainAgenda_settled _ _ _ h

end Sys2Proof.Machine
end

