-- ==== Sys2Proof/Laws/Sound.lean ====
section
/-! SUPPORT. The invariant as State.Sound, and one lemma per command's own effect that says it keeps it: reports, requests, timer
expiries, admissions, arrivals, the links' conditions. -/

namespace Sys2Proof.Machine

/-- The clauses of the invariant that no event's work touches: the sizes of the tables and what the frame holds. -/
structure State.Fixed (s : State) : Prop where
  lays : s.lays.length = 8
  programs : s.programs.length = 64
  slots : s.slots.length = 12
  kinds : s.events.kinds.length = 32
  tickets : s.intake.tickets.length ≤ 4
  mgmt : s.mgmt.length ≤ 4
  credit : s.link.credit ≤ 16
  classes : s.events.classesFixed
  uFlags : s.link.uFlags.summed

/-- The invariant, cut into what an event's work keeps and what it does not touch. -/
def State.Sound (s : State) : Prop := s.Good ∧ s.Fixed

/-- The two parts are the invariant. -/
theorem inv_iff (s : State) : Inv s ↔ s.Sound := by
  constructor
  · intro h
    obtain ⟨q1, q2, q3, q4, q5, q6, q7⟩ := h.queues
    obtain ⟨a, b, c, d⟩ := h.shaped
    refine ⟨⟨⟨q2, h.jobs⟩, q4, q6, h.pieces, h.order, ?_, h.gate, h.counters, h.halt, fun x hx => ⟨q7 x hx, h.slots x hx⟩, h.frames, h.flags.2⟩,
      ⟨a, b, c, d, q1, q3, q5, h.classes, h.flags.1⟩⟩
    intro n l hl
    unfold State.lay? at hl
    cases ho : s.lays[n]? with
    | none => simp [ho] at hl
    | some o => exact h.holds o (List.mem_of_getElem? ho) l (by simpa [ho] using hl)
  · rintro ⟨g, f⟩
    refine ⟨⟨f.lays, f.programs, f.slots, f.kinds⟩, ⟨f.tickets, g.jobs.1, f.mgmt, g.copies, f.credit, g.records,
        fun x hx => (g.slots x hx).1⟩,
      g.jobs.2, g.pieces, g.order, ?_, g.gate, f.classes, g.counters, g.halt, fun x hx => (g.slots x hx).2, g.frames, ⟨f.uFlags, g.sFlags⟩⟩
    intro o ho l hl
    obtain ⟨n, hn⟩ := List.getElem?_of_mem ho
    exact g.holds n l (by unfold State.lay?; rw [hn, hl]; rfl)

theorem kinds_classes {e e' : EventUnit} (h : e'.kinds.map (fun r => (r.cls, r.notice)) = e.kinds.map fun r => (r.cls, r.notice)) :
    e'.kinds.length = e.kinds.length ∧ ∀ i, (e'.kindAt i).cls = (e.kindAt i).cls := by
  refine ⟨by simpa using congrArg List.length h, fun i => ?_⟩
  have := congrArg (fun l => l[i]?) h
  simp only [List.getElem?_map] at this
  unfold EventUnit.kindAt
  cases h1 : e'.kinds[i]? <;> cases h2 : e.kinds[i]? <;> simp_all

/-- The fixed part goes with the frame, the sizes of two tables and a credit that does not rise. -/
theorem fixed_of {s t : State} (h : s.Fixed) (hf : t.frame = s.frame) (h1 : t.lays.length = s.lays.length)
    (h2 : t.slots.length = s.slots.length) (h3 : t.link.credit ≤ s.link.credit) : t.Fixed := by
  have hp := frame_parts hf
  have hk : t.events.kinds.map (fun r => (r.cls, r.notice)) = s.events.kinds.map fun r => (r.cls, r.notice) := by
    simp only [State.frame, Prod.mk.injEq] at hf; exact hf.2.2.2.2.2.2.2.2.2.2.2
  have hk := kinds_classes hk
  exact ⟨h1.trans h.lays, by rw [hp.2.2.2.1]; exact h.programs, h2.trans h.slots, hk.1.trans h.kinds, by rw [hp.2.2.2.2.1]; exact h.tickets,
    by rw [hp.2.2.1]; exact h.mgmt, Nat.le_trans h3 h.credit, fun i hi => by rw [hk.2 i]; exact h.classes i hi,
        by rw [hp.2.2.2.2.2.2.2.2]; exact h.uFlags⟩

theorem fixed_untouched {s t : State} (h : s.Fixed) (hu : t.untouched = s.untouched) : t.Fixed :=
  fixed_of h (frame_of_untouched hu) (congrArg (fun u => u.2.2.1) hu) (congrArg (fun u => u.2.2.2.1) hu)
      (Nat.le_of_eq (congrArg (fun u => u.2.1) hu))

theorem State.Sound.complete {e : Effect} (h : e.1.Sound) : (complete e).Sound :=
  ⟨h.1.complete, fixed_untouched h.2 (complete_untouched e)⟩

theorem owed_counters {e : EventUnit} (h : e.countersBounded) (i : Nat) :
    (e.modifyKind i fun r => { r with owed := none }).countersBounded := by
  intro r hr
  rcases List.mem_or_eq_of_mem_set hr with hr | rfl
  · exact h r hr
  · show (e.kindAt i).counter ≤ 65535
    unfold EventUnit.kindAt
    cases hk : e.kinds[i]? with
    | none => simp [KindRecord.blank]
    | some x => exact h x (List.mem_of_getElem? hk)

theorem State.Good.takeFrame {s : State} (h : s.Good) : (takeFrame s).Good := by
  unfold Machine.takeFrame
  repeat' split
  all_goals first
    | exact h
    | exact { h with }
    | exact { h with counters := owed_counters h.counters _ }
    | skip
  rename_i c rest hc
  exact { h with copies := by have := h.copies; simp [hc] at this; simp [State.setLink]; omega }

theorem State.Sound.takeFrame {s : State} (h : s.Sound) : (takeFrame s).Sound := by
  refine ⟨h.1.takeFrame, fixed_of h.2 (takeFrame_frame s) (by simp) (by simp) ?_⟩
  unfold Machine.takeFrame
  repeat' split
  all_goals simp [State.setLink, State.send]
  all_goals (split <;> omega)

theorem State.Sound.event {s : State} {prim : State → Effect} (h : (prim s).1.Sound) : (event prim s).Sound := h.complete.takeFrame

theorem State.Sound.same {s t : State} (h : s.Sound) (hg : t.Good) (hu : t.untouched = s.untouched) : t.Sound := ⟨hg,
    fixed_untouched h.2 hu⟩

/-- A command is sound where what it does out of reset is. -/
theorem sound_unlessReset {s : State} {f : State → State} (h : s.Sound) (hf : s.Sound → (f s).Sound) : (unlessReset f s).Sound := by
  unfold unlessReset; split
  · exact h
  · exact hf h

theorem sound_countU {s : State} (h : s.Sound) (f : UStats → UStats) : (s.countU f).Sound := ⟨{ h.1 with }, { h.2 with }⟩
theorem sound_countS {s : State} (h : s.Sound) (f : SStats → SStats) : (s.countS f).Sound := ⟨{ h.1 with }, { h.2 with }⟩
theorem sound_goodFrame {s : State} (h : s.Sound) (p : Port) : (s.goodFrame p).Sound := by
  cases p <;> exact ⟨{ h.1 with }, { h.2 with }⟩

theorem mark_summed (f : RxFlags) (o : RxFlag) : (f.mark o).summed := by
  unfold RxFlags.mark RxFlags.summed; split <;> simp

theorem sound_markFlag {s : State} (h : s.Sound) (p : Port) (o : Option RxFlag) : (s.markFlag p o).Sound := by
  unfold State.markFlag
  split
  · exact h
  · exact ⟨{ h.1 with }, { h.2 with uFlags := mark_summed _ _ }⟩
  · exact ⟨{ h.1 with sFlags := mark_summed _ _ }, { h.2 with }⟩

theorem sound_countFailure {s : State} (h : s.Sound) (p : Port) (c : Nat) : (s.countFailure p c).Sound := by
  unfold State.countFailure
  split
  all_goals first | exact sound_countU h _ | exact sound_countS h _

theorem sound_rejectFrame {s : State} (h : s.Sound) (p : Port) (c : Nat) (o : Option RxFlag) : (rejectFrame p c o s).1.Sound :=
  sound_countFailure (sound_markFlag h p o) p c

/-! ### Slots and reports -/

theorem clearFlight_ok {x : Slot} (h : x.ok) (st : SlotState) (hst : st = .unused ↔ x.state = .unused) :
    ({ x.clearFlight with state := st } : Slot).ok := by
  obtain ⟨h1, h2, h3, h4, h5, h6⟩ := h
  refine ⟨h1, by simpa [Slot.clearFlight, hst] using h2, h3, ?_, ?_, ?_⟩
  · intro i hi
    simp only [Slot.clearFlight, Option.map_eq_some_iff] at hi
    obtain ⟨a, ha, rfl⟩ := hi
    exact (h5 a ha).1
  · intro a ha; simp [Slot.clearFlight] at ha
  · intro i hi
    simp only [Slot.clearFlight, Option.map_eq_some_iff] at hi
    obtain ⟨a, ha, rfl⟩ := hi
    obtain ⟨j, hj⟩ := Option.isSome_iff_exists.mp (h5 a ha).2
    have := h6 j hj
    simp only [ha] at this
    show x.nextTag = (a.tag + 1) % 16
    rw [this.2, this.1]; omega

theorem clearFlight_tags (x : Slot) : ∀ a, x.announced = some a → a.tag ∈ x.clearFlight.tags := by
  intro a ha; simp [Slot.tags, Slot.flightTags, Slot.clearFlight, ha]

theorem toAbsent_ok {x : Slot} (h : x.ok) (hc : x.config.isSome = true) : x.toAbsent.ok :=
  ⟨h.1, by simp [Slot.toAbsent, Option.isSome_iff_ne_none.mp hc], h.2.2.1, by simp [Slot.toAbsent], by simp [Slot.toAbsent],
      by intro i hi; simp [Slot.toAbsent] at hi⟩

theorem good_endFlight {s : State} (h : s.Good) (k : Nat) (y : Slot) (hy : y.ok) (ha : y.inFlight = (s.slot k).clearFlight.inFlight)
    : (s.endFlight k y).Good :=
  h.endFlight hy fun a hx => by
    have := clearFlight_tags _ a hx
    simp only [Slot.tags, Slot.flightTags] at this ⊢
    rw [ha]; simp [Slot.clearFlight] at this ⊢; left; exact ⟨_, hx, rfl⟩

theorem slotAt_config {s : State} {node k : Nat} (h : s.slotAt node = some k) : (s.slot k).config.isSome = true := by
  unfold State.slotAt at h
  obtain ⟨hk, h2, -⟩ := List.findIdx?_eq_some_iff_getElem.mp h
  unfold State.slot
  rw [List.getElem?_eq_getElem hk]
  simp only [Option.getD_some]
  cases hc : s.slots[k].config <;> simp_all

theorem good_handReport {s : State} (h : s.Good) (k : Nat) (hc : (s.slot k).config.isSome = true) (tag : Byte) (r : Report)
    : (handReport k tag r s).1.Good := by
  have hk := h.slot k
  have hu : (s.slot k).state ≠ .unused := fun hs => by have := hk.2.1.mpr hs; simp [this] at hc
  have cf : (s.endFlight k (s.slot k).clearFlight).Good := good_endFlight h k _ (clearFlight_ok hk _ Iff.rfl) rfl
  cases r with
  | identAns kind caps =>
    simp only [handReport, takeIdentAns]
    split
    · exact h
    · refine good_endFlight h k _ ?_ rfl
      split
      · refine ok_keep (clearFlight_ok hk (if decide ((s.slot k).kind? = some kind) = true then .ready else .faulted)
          (by split <;> simp [hu])) hk.1 rfl rfl rfl rfl rfl
      · exact ok_keep (clearFlight_ok hk _ Iff.rfl) hk.1 rfl rfl rfl rfl rfl
  | done v => simp only [handReport, takeDone]; split <;> first | exact cf | exact h
  | refused v => simp only [handReport, takeRefused]; split <;> first | exact cf | exact h
  | pos v => exact h.setSlot (ok_keep hk hk.1 rfl rfl rfl rfl rfl)
  | strokeBegin =>
    simp only [handReport, takeStrokeBegin, strokeBegins]
    split
    · split
      · rename_i hb
        have hg := h.gate
        refine h.setGate ?_
        obtain ⟨a, b, c, d⟩ := hg
        exact ⟨by simpa [hb.1] using a, b, c, by simpa [hb.1] using d⟩
      · exact h.unbidden _
    · exact h
  | fault code =>
    refine h.setSlot ?_
    obtain ⟨h1, h2, h3, h4, h5, h6⟩ := hk
    refine ⟨h1, ?_, h3, h4, h5, h6⟩
    dsimp only
    split
    · rename_i hs; rw [h2]; rcases hs with hs | hs <;> simp [hs]
    · exact h2
  | button => simp only [handReport, takeButton]; repeat' split
              all_goals exact h
  | presence up =>
    simp only [handReport, takePresence]
    split
    · exact h
    · exact h.withdrawSlot (toAbsent_ok hk hc) fun n hn hf => absurd hn hf
  | guardState a b =>
    simp only [handReport, takeGuardState]
    split
    · exact h.setSlot (ok_keep hk hk.1 rfl rfl rfl rfl rfl)
    · exact h

theorem sound_reportArrives {s : State} (h : s.Sound) (node : Nat) (tag : Byte) (r : Report) : (reportArrives node tag r s).Sound := by
  unfold reportArrives
  refine sound_unlessReset h fun h => ?_
  split
  · exact h
  · split
    · refine State.Sound.event ?_
      have h1 : ((s.goodFrame .s).countS fun t => { t with reports := bump32 t.reports }).Sound := sound_countS (sound_goodFrame h .s) _
      unfold routeReport
      dsimp only
      split
      · have := sound_countS h1 (fun t => { t with unknownNode := bump32 t.unknownNode }); exact this
      · rename_i k hk
        exact h1.same (good_handReport h1.1 k (slotAt_config hk) tag r) (handReport_untouched _ _ _ _)
    · exact State.Sound.event (sound_rejectFrame h _ _ _)

/-! ### Requests -/

theorem State.Sound.accept {e : Effect} (h : e.1.Sound) : (Machine.accept e).state.Sound := h.complete

theorem sound_setGate {s : State} (h : s.Sound) {g : Gate} (hg : g.sound) : State.Sound { s with gate := g } := ⟨h.1.setGate hg,
    { h.2 with }⟩

theorem sound_readView {s : State} (h : s.Sound) (v : Byte) (a : BitVec 16) (c : Bool) : (readView v a c s).state.Sound := by
  unfold readView
  dsimp only
  repeat' split
  all_goals first
    | exact h
    | exact ⟨{ h.1 with sFlags := by simp [State.setLink, RxFlags.summed, RxFlags.clear] }, { h.2 with uFlags := by simp [State.setLink,
        RxFlags.summed, RxFlags.clear] }⟩

theorem sound_loadSlot {s : State} (h : s.Sound) (k : Nat) (c : Option SlotConfig) : (loadSlot k c s).1.Sound :=
  h.same (h.1.withdrawSlot (cleared_ok (h.1.slot k)) fun n hn hf => absurd hn hf) (by simp [loadSlot])

theorem sound_events {s : State} (h : s.Sound) {e : EventUnit} (hc : e.countersBounded) (hx : e.haltCause = s.events.haltCause)
    (hk : e.kinds.length = 32) (hl : e.classesFixed) : State.Sound { s with events := e } :=
  ⟨{ h.1 with counters := hc, halt := by simpa [State.haltExplained, hx] using h.1.halt }, { h.2 with kinds := hk, classes := hl }⟩

/-- A change of one kind's record that leaves its counter and gives it a class it may have. -/
theorem sound_modifyKind {s : State} (h : s.Sound) (i : Nat) (f : KindRecord → KindRecord) (hf : ∀ r, (f r).counter = r.counter)
    (hc : i < 32 → (fixedKind i = true → (f (s.events.kindAt i)).cls = (s.events.kindAt i).cls) ∧ (fixedKind i = false →
        (f (s.events.kindAt i)).cls ≠ .note)) :
    State.Sound { s with events := s.events.modifyKind i f } := by
  have hlen := h.2.kinds
  refine sound_events h ?_ rfl (by simpa [EventUnit.modifyKind] using hlen) ?_
  · intro r hr
    rcases List.mem_or_eq_of_mem_set hr with hr | rfl
    · exact h.1.counters r hr
    · rw [hf]; unfold EventUnit.kindAt
      cases hk : s.events.kinds[i]? with
      | none => simp [KindRecord.blank]
      | some x => exact h.1.counters x (List.mem_of_getElem? hk)
  · intro j hj
    have hj' := h.2.classes j hj
    by_cases hij : i = j
    · subst hij
      have : (s.events.modifyKind i f).kindAt i = f (s.events.kindAt i) := by
        simp [EventUnit.modifyKind, EventUnit.kindAt, hlen, hj]
      rw [this]
      exact ⟨fun a => ((hc hj).1 a).trans (hj'.1 a), (hc hj).2⟩
    · have : (s.events.modifyKind i f).kindAt j = s.events.kindAt j := by
        simp [EventUnit.modifyKind, EventUnit.kindAt, hij]
      rw [this]; exact hj'

theorem load_cls (c : Option EventClass) (n : Option Bool) (r : KindRecord) : (KindRecord.load c n r).counter = r.counter ∧
    (KindRecord.load c n r).cls = c.getD r.cls := by
  unfold KindRecord.load KindRecord.setNotice
  cases n <;> exact ⟨rfl, rfl⟩

theorem sound_doLoadSeverity {s : State} (h : s.Sound) (k : Byte) (c : Option Byte) (n : Option Bool)
    : (doLoadSeverity k c n s).state.Sound := by
  have none' : ∀ i, State.Sound { s with events := s.events.modifyKind i (KindRecord.load none n) } := fun i =>
    sound_modifyKind h i _ (fun r => (load_cls _ _ r).1) fun hi => by
      rw [(load_cls _ _ _).2]; exact ⟨fun _ => rfl, (h.2.classes i hi).2⟩
  unfold doLoadSeverity
  dsimp only
  repeat' split
  all_goals first
    | exact h
    | exact State.Sound.accept (none' _)
    | skip
  rename_i cls hcl h1 h2 h3
  refine State.Sound.accept (sound_modifyKind h _ _ (fun r => (load_cls _ _ r).1) fun hi => ?_)
  rw [(load_cls _ _ _).2]
  exact ⟨fun a => absurd a h2, fun _ => h3⟩

theorem sound_doClearEvents {s : State} (h : s.Sound) (f c : BitVec 32) : (doClearEvents f c s).state.Sound := by
  refine State.Sound.accept (sound_events h ?_ rfl (by simpa using h.2.kinds) ?_)
  · intro r hr
    simp only [List.mem_map] at hr
    obtain ⟨p, hp, rfl⟩ := hr
    have := h.1.counters p.1 (List.mem_zipIdx' hp |>.2 ▸ List.getElem_mem _)
    unfold KindRecord.clear; dsimp only; split <;> omega
  · intro i hi
    have : ({ s.events with kinds := s.events.kinds.zipIdx.map fun p => p.1.clear (f.getLsbD p.2) (c.getLsbD p.2) } : EventUnit).kindAt i =
        (s.events.kindAt i).clear (f.getLsbD i) (c.getLsbD i) := by
      have hl : i < s.events.kinds.length := by rw [h.2.kinds]; exact hi
      simp [EventUnit.kindAt, List.getElem?_eq_getElem hl]
    rw [this]; exact h.2.classes i hi

theorem sound_program {s : State} (h : s.Sound) (p : Nat) (x : Option (List Step)) : (s.setProgram p x).Sound :=
  ⟨{ h.1 with }, { h.2 with programs := by simpa [State.setProgram] using h.2.programs }⟩

theorem sound_intake {s : State} (h : s.Sound) {i : Intake} (h1 : i.jobs.length ≤ 32) (h2 : (i.jobs.map JobEntry.job).Nodup) (h3
    : i.tickets.length ≤ 4) :
    State.Sound { s with intake := i } := ⟨{ h.1 with jobs := ⟨h1, h2⟩ }, { h.2 with tickets := h3 }⟩

/-- Eviction takes one entry away. -/
theorem evict_sub {l r : List JobEntry} (h : evict l = some r) : r.Sublist l ∧ r.length + 1 = l.length := by
  induction l generalizing r with
  | nil => simp [evict] at h
  | cons e l ih =>
    unfold evict at h
    cases hd : evict l with
    | some r' => rw [hd] at h; simp only [Option.some.injEq] at h; subst h; have := ih hd; exact ⟨this.1.cons_cons e, by simp; omega⟩
    | none => rw [hd] at h; dsimp only at h; split at h <;> simp at h; subst h; exact ⟨List.sublist_cons_self _ _, rfl⟩

/-- A write keeps the Job Map within its size and its job numbers distinct. -/
theorem write_ok {i j : Intake} {e : JobEntry} (h : i.write e = some j) (h1 : i.jobs.length ≤ 32) (h2 : (i.jobs.map JobEntry.job).Nodup) :
    j.jobs.length ≤ 32 ∧ (j.jobs.map JobEntry.job).Nodup ∧ j.tickets = i.tickets := by
  unfold Intake.write at h
  have hf : (i.jobs.filter fun f => decide (f.job ≠ e.job)).length ≤ i.jobs.length := List.length_filter_le _ _
  split at h
  · rename_i hc
    simp only [Option.some.injEq] at h; subst h
    refine ⟨?_, ?_, rfl⟩
    · simp only [Intake.toFront, List.length_cons]
      rcases Bool.or_eq_true _ _ |>.mp hc with hc | hc
      · obtain ⟨f, hf1, hf2⟩ := List.any_eq_true.mp hc
        have : (i.jobs.filter fun f => decide (f.job ≠ e.job)).length < i.jobs.length := by
          rw [List.length_filter_lt_length_iff_exists]; exact ⟨f, hf1, by simpa using hf2⟩
        omega
      · have := of_decide_eq_true hc; omega
    · simp only [Intake.toFront, List.map_cons, List.nodup_cons]
      refine ⟨by simp, h2.sublist (List.filter_sublist.map _)⟩
  · rename_i hc
    simp only [Option.map_eq_some_iff] at h
    obtain ⟨r, hr, rfl⟩ := h
    have := evict_sub hr
    refine ⟨by simp; omega, ?_, rfl⟩
    simp only [List.map_cons, List.nodup_cons]
    refine ⟨?_, h2.sublist (this.1.map _)⟩
    intro hm
    simp only [Bool.or_eq_true, not_or, List.any_eq_true, not_exists, not_and] at hc
    obtain ⟨f, hf1, hf2⟩ := List.mem_map.mp hm
    exact hc.1 f (this.1.subset hf1) (by simpa using hf2)

theorem sound_doLoadJob {s : State} (h : s.Sound) (j : JobLoad) : (doLoadJob j s).state.Sound := by
  unfold doLoadJob
  split
  · exact h
  · split
    · exact h
    · rename_i i hi
      have := write_ok hi h.1.jobs.1 h.1.jobs.2
      exact State.Sound.accept (sound_intake h this.1 this.2.1 (by rw [this.2.2]; exact h.2.tickets))

theorem sound_doDropJob {s : State} (h : s.Sound) (j : BitVec 16) : (doDropJob j s).state.Sound := by
  unfold doDropJob
  dsimp only
  repeat' split
  all_goals first | exact h | skip
  exact State.Sound.accept (sound_intake h (Nat.le_trans (List.length_filter_le _ _) h.1.jobs.1)
      (h.1.jobs.2.sublist (List.filter_sublist.map _)) h.2.tickets)

theorem sound_probe {s : State} (h : s.Sound) (p : Slot → Bool) : (s.probe p).Sound := by
  unfold State.probe
  split
  · refine h.same (h.1.mapSlots ?_ ?_) (by simp [State.untouched, State.frame])
    · intro x hx
      split
      · rename_i hc
        obtain ⟨h1, h2, h3⟩ := hx
        refine ⟨h1, ?_, h3⟩
        have : x.config ≠ none := by intro hn; simp [hn] at hc
        simp [this]
      · exact hx
    · intro x; split <;> rfl
  · exact h

theorem unlock_sound {g : Gate} (h : g.sound) : g.unlock.sound := by
  unfold Gate.unlock; split
  · rename_i hg; obtain ⟨a, b, c, d⟩ := h; exact ⟨by simpa [hg] using a, b, c, by simp⟩
  · exact h

theorem cellReset_ok {x : Slot} (h : x.ok) : x.cellReset.ok ∧ (x.config = none ∨ x.cellReset.tags = []) := by
  unfold Slot.cellReset
  cases hc : x.config with
  | none => exact ⟨h, .inl rfl⟩
  | some c =>
    dsimp only
    have hy : ({ x.cleared.toAbsent with lampPending := none } : Slot).ok :=
      idle_ok (by simp [Slot.toAbsent, Slot.cleared]) (by simp [Slot.toAbsent, Slot.cleared, hc]) h.2.2.1 rfl rfl
    split
    · exact ⟨want_ok _ hy, .inr rfl⟩
    · exact ⟨hy, .inr rfl⟩

theorem cellReset_lay? (s : State) (n : Nat) : (cellReset s).lay? n = none := by
  show ((List.replicate 8 (none : Option Lay))[n]?).getD none = none
  rw [List.getElem?_replicate]; split <;> rfl

theorem sound_cellReset {s : State} (h : s.Sound) : (cellReset s).Sound := by
  obtain ⟨a, b, c, d⟩ := h.1.gate
  constructor
  · exact {
      jobs := h.1.jobs
      copies := h.1.copies
      records := h.1.records
      pieces := ⟨by simp [cellReset], by simp [cellReset]⟩
      order := ⟨by simp [cellReset], by simp [cellReset], fun n hn hl => by rw [cellReset_lay?] at hl; simp at hl⟩
      holds := by intro n l hl; rw [cellReset_lay?] at hl; simp at hl
      gate := ⟨by simp [cellReset], b, c, by simp [cellReset]⟩
      counters := h.1.counters
      halt := h.1.halt
      slots := by
        intro y hy
        obtain ⟨x, hx, rfl⟩ := List.mem_map.mp hy
        exact (cellReset_ok (h.1.slots x hx)).1
      frames := ⟨by simp [cellReset], by simp [cellReset]⟩
      sFlags := h.1.sFlags }
  · exact { h.2 with
      lays := by simp [cellReset]
      slots := by simpa [cellReset] using h.2.slots
      tickets := by simp [cellReset] }

theorem sound_updateLay {s : State} (h : s.Sound) {n : Nat} {f : Lay → Lay}
    (hf : ∀ l, s.lay? n = some l → l.holdExplained → (f l).holdExplained) : (s.updateLay n f).Sound := h.same (h.1.updateLay hf) (by simp)

theorem sound_layControl {s : State} (h : s.Sound) (lay a : Byte) : (layControl lay a s).state.Sound := by
  have keep : ∀ n f, (∀ l : Lay, (f l).state = l.state ∧ (f l).cause = l.cause ∧ (f l).heldFrom = l.heldFrom) → (s.updateLay n f).Sound :=
    fun n f hf => h.same (h.1.touchLay hf) (by simp)
  unfold layControl doHold doRelease doAbandon startAbandon startRelease
  dsimp only
  repeat' split
  all_goals first
    | exact h
    | exact State.Sound.accept h
    | exact State.Sound.accept (h.same (h.1.hold _ _) (by simp))
    | exact State.Sound.accept (keep _ _ fun _ => ⟨rfl, rfl, rfl⟩)
    | exact State.Sound.accept (h.same (h.1.takeAbandon _) (by simp))

theorem sound_finishQueued {s : State} (h : s.Sound) (r : Summary) (rest : List Summary) (hr : s.delivery.records = r :: rest) :
    (State.finishQueued { s with delivery := { s.delivery with records := rest } }).Sound := by
  have hl : rest.length < 16 := by have := h.1.records; rw [hr] at this; simp at this; omega
  have hg : ∀ q, State.Good { s with delivery := { s.delivery with records := rest, finishQueue := q } } :=
      fun q => { h.1 with records := by simp; omega }
  have hg0 : State.Good { s with delivery := { s.delivery with records := rest } } := { h.1 with records := by simp; omega }
  unfold State.finishQueued
  dsimp only
  split
  · exact h.same hg0 (by simp)
  · rename_i n q hq
    split
    · rename_i l hl'
      have hn : n < s.lays.length := lay?_lt (s := s) hl'
      refine h.same ((hg q).freeLay l hl hn) (by simp [State.freeLay, State.untouched, State.frame])
    · exact h.same (hg q) (by simp)

/-- No request breaks the invariant. -/
theorem sound_answerOf {s : State} (h : s.Sound) (p : List Byte) : (answerOf p s).state.Sound := by
  unfold answerOf
  split
  · rename_i r _
    cases r with
    | echo d => exact h
    | read v a c => exact sound_readView h v a c
    | loadCell c =>
      simp only [carryOut, doLoadCell]
      repeat' split
      all_goals first | exact h | skip
      exact State.Sound.accept ⟨{ h.1 with gate := h.1.gate, halt := h.1.halt }, { h.2 with }⟩
    | loadSlot k c =>
      simp only [carryOut, doLoadSlot]
      repeat' split
      all_goals first | exact h | exact State.Sound.accept (sound_loadSlot h _ _)
    | loadSeverity a b c => exact sound_doLoadSeverity h _ _ _
    | loadProgram p st =>
      simp only [carryOut, doLoadProgram]
      repeat' split
      all_goals first | exact h | exact State.Sound.accept (sound_program h _ _)
    | eraseProgram p =>
      simp only [carryOut, doEraseProgram]
      repeat' split
      all_goals first | exact h | exact State.Sound.accept (sound_program h _ _)
    | loadJob j => exact sound_doLoadJob h j
    | dropJob j => exact sound_doDropJob h j
    | cellControl a =>
      simp only [carryOut, cellControl, doProbe, doStart, doStop, doAckHalt, doRetrain, doResetWear, doCellReset]
      have h1 : State.Sound { s with gate := s.gate.unlock } := sound_setGate h (unlock_sound h.1.gate)
      have h2 : State.Sound { s with gate := { s.gate with wear := 0, wearReported := false } } := sound_setGate h h.1.gate
      repeat' split
      all_goals first
        | exact h
        | exact State.Sound.accept h
        | exact State.Sound.accept (sound_probe h _)
        | exact State.Sound.accept h1
        | exact State.Sound.accept h2
        | exact State.Sound.accept (sound_cellReset h)
    | layControl l a => exact sound_layControl h l a
    | takeDelivery =>
      simp only [carryOut, doTakeDelivery]
      split
      · exact h
      · rename_i r rest hr
        exact State.Sound.complete (e := (_, _)) (sound_finishQueued h r rest hr)
    | clearEvents f c => exact sound_doClearEvents h f c
  · exact h

theorem sound_answer {s : State} (h : s.Sound) (f : UFrame) : (s.answer f).Sound := ⟨h.1.answer f, { h.2 with }⟩

theorem sound_pump (n : Nat) {s : State} (h : s.Sound) : (pump n s).Sound := by
  induction n generalizing s with
  | zero => exact h
  | succ n ih =>
    unfold pump
    split
    · exact h
    · rename_i e rest hm
      split
      · exact h
      · refine ih (State.Sound.takeFrame (sound_answer (sound_answerOf ?_ _) _))
        exact ⟨{ h.1 with }, { h.2 with mgmt := by have := h.2.mgmt; rw [hm] at this; simp at this; show rest.length ≤ 4; omega }⟩

theorem sound_pumpAll {s : State} (h : s.Sound) : (pumpAll s).Sound := sound_pump 8 h.takeFrame

theorem sound_mgmtArrives {s : State} (h : s.Sound) (tag : Byte) (p : List Byte) : (mgmtArrives tag p s).Sound := by
  unfold mgmtArrives
  refine sound_unlessReset h fun h => ?_
  split
  · exact h
  · refine sound_pumpAll ?_
    have h1 := sound_goodFrame h .u
    unfold queueRequest
    dsimp only
    split
    · rename_i hl
      have h2 := sound_countU h1 fun t => { t with requests := bump32 t.requests }
      exact ⟨{ h2.1 with }, { h2.2 with mgmt := by simp; omega }⟩
    · refine State.Sound.event ?_
      have h2 := sound_countU h1 fun t => { t with requestOverruns := bump32 t.requestOverruns }
      exact ⟨{ h2.1 with }, { h2.2 with uFlags := by simp [State.setLink, RxFlags.summed, RxFlags.markOverrun] }⟩

/-! ### Timers, admission, arrivals and lines -/

theorem sound_window {s : State} (h : s.Sound) : (windowExpiry s).1.Sound := by
  unfold windowExpiry; split
  · exact sound_setGate h (withdraw_sound h.1.gate)
  · exact h

theorem sound_stroke {s : State} (h : s.Sound) : (strokeExpiry s).1.Sound := by
  unfold strokeExpiry; split
  · exact h.same (h.1.strokeFails _) (by simp)
  · exact h

theorem sound_idle {s : State} (h : s.Sound) : (idleExpiry s).1.Sound := by
  unfold idleExpiry; split <;> exact h

theorem sound_settleE {s : State} (h : s.Sound) : (settleExpiry s).1.Sound := by
  unfold settleExpiry; split
  · exact h.same h.1.settled (by simp)
  · exact h

theorem sound_lockWait {s : State} (h : s.Sound) : (lockWaitExpiry s).1.Sound := by
  unfold lockWaitExpiry; split
  · exact h.same (State.Good.startFails (h.1.setCell rfl)) ((congrArg _ rfl).trans (detachCell_untouched _))
  · exact h

theorem sound_fill {s : State} (h : s.Sound) : (fillExpiry s).1.Sound := by
  unfold fillExpiry; split <;> exact h

theorem sound_order {s : State} (h : s.Sound) (k : Nat) : (orderExpiry k s).1.Sound := by
  unfold orderExpiry; dsimp only
  repeat' split
  · exact h
  · exact h
  · rename_i hs
    exact h.same (good_endFlight h.1 k _ (clearFlight_ok (h.1.slot k) .faulted (by simp [hs])) rfl) (by simp)
  · exact h.same (good_endFlight h.1 k _ (clearFlight_ok (h.1.slot k) _ Iff.rfl) rfl) (by simp)

theorem sound_ident {s : State} (h : s.Sound) (k : Nat) : (identExpiry k s).1.Sound := by
  unfold identExpiry; dsimp only
  repeat' split
  · rename_i hs
    refine h.same (h.1.withdrawSlot (toAbsent_ok (h.1.slot k) ?_) fun n hn hf => absurd hn hf) (by simp)
    have := (h.1.slot k).2.1
    cases hc : (s.slot k).config with
    | none => rw [this.mp hc] at hs; simp at hs
    | some c => rfl
  · exact h.same (good_endFlight h.1 k _ (clearFlight_ok (h.1.slot k) _ Iff.rfl) rfl) (by simp)
  · exact h

/-- The free record found is one of the table and holds no lay. -/
theorem freeRecord_spec {s : State} {n : Nat} (h : s.freeRecord = some n) : n < s.lays.length ∧ s.lay? n = none := by
  obtain ⟨hk, h2, -⟩ := List.findIdx?_eq_some_iff_getElem.mp h
  refine ⟨hk, ?_⟩
  unfold State.lay?; rw [List.getElem?_eq_getElem hk]; simpa using h2

theorem sound_admitTicket {s : State} (h : s.Sound) : (admitTicket s).1.Sound := by
  unfold admitTicket
  split
  · rename_i t rest n ht hn
    obtain ⟨hk, hl⟩ := freeRecord_spec hn
    dsimp only
    let u := { s with
      intake := { s.intake with tickets := rest }
      lays := s.lays.set n (some (admitted t))
      order := s.order ++ [n] }
    have hs1 : u.Sound := by
      have hlay : ∀ m, u.lay? m = if m = n then some (admitted t) else s.lay? m := lay?_setLay (some (admitted t)) hk
      obtain ⟨o1, o2, o3⟩ := h.1.order
      have hno : n ∉ s.order := fun hm => by have := o2 n hm; rw [hl] at this; simp at this
      refine ⟨{ h.1 with jobs := h.1.jobs, order := ⟨?_, ?_, ?_⟩, holds := ?_ }, { h.2 with
        lays := by simpa [u] using h.2.lays
        tickets := by have := h.2.tickets; rw [ht] at this; simp at this; show rest.length ≤ 4; omega }⟩
      · exact List.nodup_append.mpr ⟨o1, by simp, fun a ha b hb => by simp at hb; rintro rfl; exact hno (hb ▸ ha)⟩
      · intro m hm; rw [hlay]
        rcases List.mem_append.mp hm with hm | hm
        · split
          · rfl
          · exact o2 m hm
        · simp at hm; simp [hm]
      · intro m h8 hm; rw [hlay] at hm
        split at hm
        · rename_i he; simp [u, he]
        · exact List.mem_append_left _ (o3 m h8 hm)
      · intro m l hm; rw [hlay] at hm
        split at hm
        · simp at hm; subst hm; exact holdExplained_free (by simp [admitted]) rfl rfl
        · exact h.1.holds m l hm
    have hs2 := hs1.same (hs1.1.searchMap n t.job) (by unfold searchMap; split <;> simp [State.untouched, State.frame, Intake.toFront])
    unfold admissionWake
    split
    · exact ⟨{ hs2.1 with }, { hs2.2 with }⟩
    · exact hs2
    · exact hs2
  · exact h

theorem sound_takeTicket {s : State} (h : s.Sound) (t : Ticket) : (takeTicket t s).1.Sound := by
  have h1 : ∀ l : List Ticket, l.length ≤ 4 → State.Sound { s with intake := { s.intake with tickets := l } } :=
    fun l hl => ⟨{ h.1 with jobs := h.1.jobs }, { h.2 with tickets := hl }⟩
  unfold takeTicket; dsimp only
  repeat' split
  · exact sound_admitTicket (h1 _ (by simp))
  · exact h1 _ (by simp)
  · exact h1 _ (by simp; omega)
  · exact h

theorem sound_takeDirect {s : State} (h : s.Sound) (node : Nat) (tag : Byte) (o : OrderKind) : (takeDirect node tag o s).1.Sound := by
  unfold takeDirect; dsimp only
  split
  · have h1 := sound_countU h fun t => { t with directOverruns := bump32 t.directOverruns }
    exact ⟨{ h1.1 with }, { h1.2 with uFlags := by simp [State.setLink, RxFlags.summed, RxFlags.markOverrun] }⟩
  · rename_i hc
    have h1 : (s.setLink { s.link with credit := s.link.credit + 1 }).Sound :=
      ⟨{ h.1 with }, { h.2 with credit := by simp [State.setLink]; omega }⟩
    have hr : ∀ r, (refuseDirect node tag r (s.setLink { s.link with credit := s.link.credit + 1 })).Sound := fun r =>
      sound_answer (sound_countU h1 _) _
    split
    · exact hr _
    · split
      · exact hr _
      · have h2 := sound_countU h1 fun t => { t with directsAccepted := bump32 t.directsAccepted }
        dsimp only at h2
        dsimp only
        unfold State.directRecords
        have hc : ∀ {u : State}, u.Sound → ∀ c, (u.setClamp c).Sound := fun hu c => ⟨hu.1.setSeq _, { hu.2 with }⟩
        have hg : ∀ {u : State}, u.Sound → ∀ c, (u.setGauge c).Sound := fun hu c => ⟨hu.1.setSeq _, { hu.2 with }⟩
        dsimp only
        split <;> split
        all_goals first | exact hg (hc h2 _) _ | exact hg h2 _ | exact hc h2 _

theorem sound_frameArrives {s : State} (h : s.Sound) (p : Port) (r : Received) : (frameArrives p r s).Sound := by
  unfold frameArrives
  refine sound_unlessReset h fun h => ?_
  split
  · exact h
  · split
    · exact State.Sound.event (sound_rejectFrame h _ _ _)
    · refine State.Sound.event (sound_takeTicket ?_ _)
      exact sound_countU (sound_goodFrame h .u) fun u => { u with tickets := bump32 u.tickets }
    · exact sound_mgmtArrives h _ _
    · exact State.Sound.event (sound_takeDirect (sound_goodFrame h .u) _ _ _)
    · exact sound_reportArrives h _ _ _

theorem sound_falls {s : State} (h : s.Sound) (b : Bool) : (ringFalls b s).1.Sound := by
  unfold ringFalls; dsimp only
  have h1 := sound_countS h fun t => { t with lockLosses := bump32 t.lockLosses }
  have ho : ∀ {u : State}, u.Sound → u.link.output = [] → u.slots = s.slots →
      State.Sound { u with slots := s.slots.map fun x => if x.config.isSome then x.toAbsent else x } := by
    intro u hu hn hs
    refine ⟨{ hu.1 with slots := ?_, frames := ⟨by simp [hn], by simp [hn]⟩ }, { hu.2 with slots := by simpa using h.2.slots }⟩
    intro y hy
    obtain ⟨x, hx, rfl⟩ := List.mem_map.mp hy
    have := h.1.slots x hx
    split
    · rename_i hc; exact toAbsent_ok this hc
    · exact this
  have h2 : ((s.countS fun t => { t with lockLosses := bump32 t.lockLosses }).setLink
      { (s.countS fun t => { t with lockLosses := bump32 t.lockLosses }).link with ringUp := false, leaving := none, output :=
          [] }).Sound :=
    ⟨{ h1.1 with frames := ⟨by simp [State.setLink], by simp [State.setLink]⟩ }, { h1.2 with }⟩
  cases b
  · exact ho h2 rfl rfl
  · exact ho (sound_rejectFrame h2 .s 1 (some .framing)) (by simp [rejectFrame, State.countFailure, State.markFlag, State.countS,
      State.setLink]) rfl

/-- The passing of one millisecond keeps the invariant. -/
theorem sound_passTime {s : State} (h : s.Sound) : (passTime s).Sound := by
  refine ⟨{ h.1 with
    gate := h.1.gate
    halt := h.1.halt
    slots := ?_
    frames := ?_ }, { h.2 with slots := by simpa [passTime] using h.2.slots }⟩
  · intro y hy
    obtain ⟨x, hx, rfl⟩ := List.mem_map.mp hy
    exact ok_tags (h.1.slots x hx) (h.1.slots x hx).1 rfl rfl rfl (by simp [Function.comp_def]) rfl
  · exact (h.1.mapSlots (f := fun x => { x with inFlight := x.inFlight.map fun i => { i with left := i.left - 1 } })
      (fun x hx => ok_tags hx hx.1 rfl rfl rfl (by simp [Function.comp_def]) rfl)
      (fun x => by simp [Slot.tags, Slot.flightTags, Function.comp_def])).frames

end Sys2Proof.Machine
end

