-- ==== Sys2Proof/WellFormed.lean ====
section
/-! DEFINITION. Which commands are well formed: every operand within the range the spec gives the frame's field, so that the
command is the one its row names. -/

namespace Sys2Proof

open Sys2Proof.Machine

/-- The bytes of a BAD_FRAME fail a check of R173. -/
def frameFails : Received → Bool
  | .rejected _ _ => true
  | .ticket _ | .mgmt _ _ | .direct _ _ _ | .report _ _ _ => false

/-- A REPORT's sender is a node address, 0 and 31 included (R179). -/
def reportNodeOk (node : Nat) : Bool := within 0 31 node

/-- A slot number (spec file 00). -/
def slotOk (slot : Nat) : Bool := decide (slot < 12)

/-- The command's operands are in range. -/
def Instr.wellFormed : Instr → Bool
  | .powerOn | .resetNAssert | .resetNRelease => true
  | .badFrame port whole bytes => frameFails (receive port whole bytes)
  | .ticket t => ticketInRange t
  | .mgmt _ payload => within 1 240 payload.length
  | .direct node _ order => within 1 30 node && orderInRange order
  | .identAns node _ _ _ | .done node _ _ | .refused node _ _ | .pos node _ _ | .strokeBegin node _ | .fault node _ _
  | .button node _ | .presence node _ _ | .guardState node _ _ _ => reportNodeOk node
  | .uPortLockGained | .uPortLockLost _ | .ringUp | .ringDown _ | .uPortFrameEnd | .orderFrameEnd => true
  | .orderTimerExpiry slot | .identTimerExpiry slot => slotOk slot
  | .fillTimerExpiry | .permitWindowExpiry | .strokeTimerExpiry | .idleTimerExpiry | .wakeSettleExpiry | .lockWaitExpiry
  | .admission => true
  | .echo _ data => decide (data.length ≤ 238)
  | .readCell _ | .readLay _ _ | .readSlot _ _ | .readZones _ | .readJob _ _ | .readJobs _ | .readProgram _ _ | .readEvents _
  | .readGate _ | .readDeliveryHead _ | .readLink _ _ => true
  | .loadCell _ _ | .loadSlot _ _ _ | .loadSeverity _ _ _ _ => true
  | .loadProgram _ _ steps => decide (steps.length ≤ 47)
  | .eraseProgram _ _ | .loadJob _ _ | .dropJob _ _ => true
  | .probe _ | .start _ | .stop _ | .ackHalt _ | .retrain _ | .resetWear _ | .cellReset _ => true
  | .layControlHold _ _ | .layControlRelease _ _ | .layControlAbandon _ _ | .takeDelivery _ | .clearEvents _ _ _ => true
  | .badRequest _ payload => within 1 240 payload.length && (parseRequest payload).isNone

end Sys2Proof
end

