-- ==== Sys2Proof/Tests/Slice0.lean ====
section
/-! SUPPORT. The model's own tests: ill-formed commands, the encodings of spec file 12, one step of each block, and for every obligation with
hypotheses states and operands that meet them. -/

namespace Sys2Proof.Tests

set_option Elab.async false

open Sys2Proof Sys2Proof.Machine

/-! ### Small states -/

/-- The state a command leads to. -/
def ran (c : Instr) (s : State) : State :=
  match exec c s with
  | .next t => t
  | .fault _ => s
  | .refused _ => s

/-- After reset, with lock and with the ring UP. -/
def listening : State := { State.reset with link := { State.reset.link with uLock := true, ringUp := true } }

def config (kind : StationKind) (node : Nat) : SlotConfig :=
  { kind := kind, node := node, timeout := 10000, button := .stopCell, lamp := .fixed .off, forward := true, permitted := 0x30008
    removable := false }

/-- A READY slot of a kind, with every capability. -/
def readySlot (kind : StationKind) (node : Nat) : Slot :=
  { State.reset.slot 0 with config := some (config kind node), state := .ready, caps := some ⟨true, true, true, true⟩ }

/-- Nine READY slots, one of each kind at the nodes 1 to 9, the knife at TOP and the guard closed and locked. -/
def stations : List Slot :=
  [readySlot .lift 1, readySlot .jog 2, readySlot .xfer 3, readySlot .gauge 4, readySlot .clamp 5,
    { readySlot .knife 6 with position := some .top }, readySlot .turn 7, readySlot .out 8,
    { readySlot .guard 9 with guard := some ⟨false, true⟩ }] ++ List.replicate 3 (State.reset.slot 0)

/-- The cell with its stations, in a cell state. -/
def cellIn (st : CellState) : State := { listening with slots := stations, cell := { listening.cell with state := st } }

def running : State := cellIn .running

/-- A lay on the TABLE at its first step. -/
def lay : Lay where
  state := .cutting
  job := 5210
  pile := 1
  program := some 21
  step := some 0
  runs := none
  x := some 102000
  y := some 72000
  height := 6000
  turns := 0
  face := .up
  zone := some .table
  phase := none
  target := none
  press := some 5
  mode := some .beltA
  jogTime := some 1000
  zero := false
  short := false
  fitq := none
  fitr := none
  strokes := 0
  blocksA := 0
  blocksB := 0
  waste := 0
  holds := 0
  cause := none
  heldFrom := none
  holdWanted := false
  abandonWanted := false
  abandoned := false

/-- The lay as record 0, the occupant of the TABLE where it says so. -/
def withLay (l : Lay) (s : State) : State :=
  { s with
    lays := some l :: List.replicate 7 none
    order := [0]
    zones := if l.zone = some .table then { s.zones with table := ⟨some 0, none⟩ } else s.zones }

def resting (st : LayState) (z : Option ZoneId) : Lay := { lay with state := st, zone := z, step := none }

def heldLay (cause : HoldCause) (st : LayState) (z : Option ZoneId) : Lay :=
  { lay with state := .held, cause := some cause, heldFrom := some st, zone := z }

/-- An order of a lay origin in flight on a slot, its timer at a time left. -/
def busy (k tag left : Nat) (o : OrderKind) (s : State) (origin : Source := .sequence 0 false) : State :=
  s.setSlot k { s.slot k with inFlight := some ⟨tag, ⟨o, [origin]⟩, left⟩ }

/-- The lay in STROKING with its permit, in a gate state. -/
def permitted (g : GateState) : State :=
  let s := withLay { lay with phase := some .stroking, target := some 93000 } (busy 5 3 10 .stroke running (.gate 0))
  { s with
    gate := { s.gate with
      state := g, permit := some ⟨0, 0, 3⟩, permits := 1, window := if g = .opened then some 1 else none
      timer := if g = .stroke then some ⟨610, 1000⟩ else none }
    programs := s.programs.set 21 (some [.trim 9000, .endProgram .auto])
    seq := ⟨.clamped 0 5, .known 93000 true, none, none⟩ }

/-- While RESET_N is held low. -/
def heldReset : State := ran .resetNAssert State.reset

def job : JobEntry := ⟨5210, 21, 102000, 72000, 5, .beltA, 1000, false⟩

def jobLoad : JobLoad := ⟨5210, 21, 102000, 72000, 5, 0, 1000, true⟩

def slotLoad : SlotLoad := ⟨5, 12, 60000, 1, 0, true, 0x3ffff, false⟩

def noLoad : CellLoad := ⟨none, none, none, none, none, none, none, none, none, none, none⟩

def endStep : RawStep := ⟨14, 0⟩

theorem some_of {α : Type} {o : Option α} {P : α → Prop} [DecidablePred P] (h : (o.all fun a => decide (P a)) = true) :
    ∀ a, o = some a → P a := by
  intro a ha; subst ha; simpa using h

/-! ### Ill-formed commands, one for each check -/

theorem test_illFormed_badFrame : Instr.wellFormed (.badFrame .u true (Envelope.bytes ⟨2, 0, 7, [0, 1]⟩)) = false := by decide +kernel
theorem test_illFormed_ticket : [(⟨0, 1, 1, none, none, none⟩ : Ticket), ⟨65536, 1, 1, none, none, none⟩, ⟨1, 65536, 1, none, none, none⟩,
    ⟨1, 1, 0, none, none, none⟩, ⟨1, 1, 400001, none, none, none⟩, ⟨1, 1, 1, some 0, none, none⟩, ⟨1, 1, 1, none, some 400001, none⟩].all
      (fun t => !Instr.wellFormed (.ticket t)) = true := by decide +kernel
theorem test_illFormed_mgmt : Instr.wellFormed (.mgmt 7 []) = false ∧ Instr.wellFormed (.mgmt 7 (List.replicate 241 0)) = false := by
  decide +kernel
theorem test_illFormed_direct_node : Instr.wellFormed (.direct 0 7 .stop) = false ∧ Instr.wellFormed (.direct 31 7 .stop) = false := by
  decide +kernel
theorem test_illFormed_direct_order : [OrderKind.present 0, .present 400001, .jog 0, .jog 30001, .moveLay .lift .buffer, .move 400001,
    .clamp 0, .clamp 9, .rotate 0, .rotate 4].all (fun o => !Instr.wellFormed (.direct 5 7 o)) = true := by decide +kernel
theorem test_illFormed_report : [Report.identAns .knife ⟨true, false, false, true⟩, .done 0, .refused .aborted, .pos 0, .strokeBegin,
    .fault 1, .button, .presence true, .guardState true false].all (fun r => !Instr.wellFormed (r.command 32 0)) = true := by
  decide +kernel
theorem test_illFormed_slot : Instr.wellFormed (.orderTimerExpiry 12) = false ∧ Instr.wellFormed (.identTimerExpiry 12) = false := by
  decide
theorem test_illFormed_echo : Instr.wellFormed (.echo 7 (List.replicate 239 0)) = false := by decide +kernel
theorem test_illFormed_loadProgram : Instr.wellFormed (.loadProgram 7 0 (List.replicate 48 endStep)) = false := by decide +kernel
theorem test_illFormed_badRequest : Instr.wellFormed (.badRequest 7 []) = false ∧
    Instr.wellFormed (.badRequest 7 (List.replicate 241 99)) = false ∧ Instr.wellFormed (.badRequest 7 [0, 1, 2]) = false := by
  decide +kernel

/-! ### Encodings, written out from spec file 12 -/

/-- The CRC of R172 over the digits 1 to 9, by its published check value. -/
theorem test_crc : crc [0x31, 0x32, 0x33, 0x34, 0x35, 0x36, 0x37, 0x38, 0x39] = 0x29B1 := by decide +kernel
theorem test_ticket_bytes : encodeTicket ⟨5210, 1, 6000, some 102000, none, some .down⟩ =
    [0x14, 0x5A, 0, 1, 0, 0, 0x17, 0x70, 0, 1, 0x8E, 0x70, 0, 0, 0, 0, 2] := by decide +kernel
theorem test_order_bytes : encodeOrder (.moveLay .jog .buffer) = [7, 1, 2] ∧ encodeOrder (.jog 1000) = [6, 3, 0xE8] ∧
    encodeOrder (.move 93000) = [8, 0, 1, 0x6B, 0x48] ∧ encodeOrder (.deliver .chute) = [15, 2] ∧ encodeOrder .unlock = [17] := by
  decide +kernel
theorem test_report_bytes : encodeReport (.identAns .knife ⟨true, false, false, true⟩) = [0, 5, 9] ∧
    encodeReport (.refused .beltFull) = [2, 3] ∧ encodeReport (.guardState true false) = [8, 1, 0] := by decide +kernel
theorem test_request_bytes : encodeRequest (.dropJob 5210) = [8, 0x14, 0x5A] ∧ encodeRequest (.layControl 3 2) = [10, 3, 2] ∧
    encodeRequest (.read 10 0 true) = [1, 10, 0, 0, 1] ∧
    parseRequest [5, 21, 1, 14, 0, 0, 0, 0] = some (.loadProgram 21 [endStep]) ∧ parseRequest [13] = none := by decide +kernel
/-- A REPORT longer than its code allows fails check 5, one with an unknown code check 6, a TICKET on the S-port check 3 or 4. -/
theorem test_receive_checks : receive .s true (Envelope.bytes ⟨9, 6, 0, [4, 0]⟩) = .rejected 5 (some .length) ∧
    receive .s true (Envelope.bytes ⟨9, 6, 0, [9]⟩) = .rejected 6 none ∧
    receive .u true (Envelope.bytes ⟨9, 6, 0, [4]⟩) = .rejected 4 none ∧ receive .u false [] = .rejected 1 (some .framing) ∧
    receive .u true [2, 0, 7, 1, 11, 0, 0] = .rejected 2 (some .check) := by decide +kernel

/-! ### One step -/

theorem test_step_takes_front : step { running with pending := [.echo 7 [1], .ringUp] } =
    exec (.echo 7 [1]) { running with pending := [.ringUp] } := rfl
theorem test_idle_tick : idleStep { running with cell := { running.cell with idle := some 5 } } =
    { running with cell := { running.cell with idle := some 4 } } := by decide +kernel
theorem test_reset_started : (State.reset.events.kindAt 0).counter = 1 ∧ (State.reset.events.kindAt 0).owed = some (.none, 0) := by
  decide +kernel
theorem test_lock_gained_sends_started : (ran .uPortLockGained State.reset).link.sending = some ⟨.notice, 0, 0, [0, 0, 0, 0, 0, 0]⟩ := by
  decide +kernel
theorem test_ticket_admits : ((ran (.ticket ⟨5210, 1, 6000, none, none, none⟩) running).lay? 0).map Lay.state = some .awaitJob ∧
    (ran (.ticket ⟨5210, 1, 6000, none, none, none⟩) running).intake.fill = some ⟨5210, 5000⟩ := by decide +kernel
/-- The present of a bound lay goes to LIFT, in RUNNING, in the same event. -/
theorem test_hit_presents :
    let t := ran (.ticket ⟨5210, 1, 6000, none, none, none⟩) { running with
      intake := { running.intake with jobs := [job] }, programs := running.programs.set 21 (some [.endProgram .auto]) }
    (t.lay? 0).map Lay.state = some .moving ∧ (t.slot 0).inFlight = some ⟨0, ⟨.present 6000, [.arbiter 0]⟩, 10000⟩ := by
  decide +kernel
/-- POSITIONING and CLAMPING done, the last permit condition met: the permit is issued in the DONE's event. -/
theorem test_clamp_done_permits :
    let s := withLay { lay with phase := some .clamping, target := some 93000 } (busy 4 2 10 (.clamp 5) running)
    let t := ran (.done 5 2 0) { s with
      seq := ⟨.released, .known 93000 true, none, none⟩, programs := s.programs.set 21 (some [.trim 9000, .endProgram .auto]) }
    t.gate.state = .opened ∧ t.gate.permit = some ⟨0, 0, 0⟩ ∧ t.gate.permits = 1 ∧ t.seq.clamp = .clamped 0 5 ∧
      (t.slot 5).inFlight = some ⟨0, ⟨.stroke, [.gate 0]⟩, 10000⟩ := by decide +kernel
theorem test_stroke_done_commits :
    let t := ran (.done 6 3 0) (permitted .stroke)
    t.gate.strokes = 1 ∧ t.gate.lastStroke = some 610 ∧ (t.lay? 0).map Lay.x = some (some 93000) ∧
      (t.lay? 0).map Lay.phase = some (some .releasing) ∧ t.seq.inHand = some ⟨0, .waste, 9000, 72000⟩ := by decide +kernel
theorem test_stroke_timer_locks_out :
    let t := ran .strokeTimerExpiry (permitted .stroke)
    t.gate.state = .lockedOut ∧ t.gate.permit = none ∧ (t.events.kindAt 31).counter = 1 ∧ t.cell.state = .halted := by
  decide +kernel
theorem test_window_lapses :
    let t := ran .permitWindowExpiry (permitted .opened)
    t.gate.state = .closed ∧ (t.events.kindAt 24).counter = 1 ∧ (t.lay? 0).map Lay.state = some .held := by decide +kernel
theorem test_ring_down_halts : (ran (.ringDown false) running).cell.state = .halted ∧
    ((ran (.ringDown false) running).slot 5).state = .absent := by decide +kernel
/-- A CELL event of the binding halts a PARKED cell, and the admission does not wake it (R151, log 42). -/
theorem test_binding_halt_forestalls_waking :
    let s := cellIn .parked
    let t := ran (.ticket ⟨5210, 1, 400000, none, none, none⟩) { s with
      intake := { s.intake with jobs := [job] }
      events := s.events.modifyKind EventKind.sizeLimit.index fun r => { r with cls := .cell } }
    t.cell.state = .halted ∧ t.events.haltCause = some ⟨.sizeLimit, .lay 0, 1003⟩ := by decide +kernel
/-- REPEAT_IGNORED of class CELL halts the cell, and the PRESS it was raised for executes in the same event (R35, R150). -/
theorem test_repeat_ignored_executes :
    let s := withLay { lay with runs := some 2 } running
    let t := ran (.pos 4 0 0) { s with
      programs := s.programs.set 21 (some [.press 7, .endProgram .auto])
      events := s.events.modifyKind EventKind.repeatIgnored.index fun r => { r with cls := .cell } }
    t.cell.state = .halted ∧ t.events.haltCause = some ⟨.repeatIgnored, .lay 0, 2⟩ ∧
      (t.lay? 0).map (fun l => (l.press, l.step, l.runs, l.phase)) = some (some 7, some 1, none, none) := by decide +kernel
/-- The STROKE of another KNIFE slot, in flight since a halt, while the working slot's permit is in STROKE (R99, R106). -/
def twoKnives : State := busy 9 2 10 .stroke ((permitted .stroke).setSlot 9 (readySlot .knife 10)) (.gate 0)
/-- Its DONE commits no cut: it is an unbidden stroke. Its refusal changes nothing in the gate. -/
theorem test_old_stroke_is_unbidden :
    let t := ran (.done 10 2 0) twoKnives
    let u := ran (.refused 10 2 .cannot) twoKnives
    t.gate.state = .lockedOut ∧ t.gate.strokes = 0 ∧ (t.lay? 0).map Lay.x = some (some 102000) ∧ t.seq.inHand = none ∧
      t.events.haltCause = some ⟨.unbiddenStroke, .slot 5, 258⟩ ∧ u.gate = twoKnives.gate ∧ (u.events.kindAt 31).counter = 0 := by
  decide +kernel
/-- Two pieces of one lay with two stations: the older since a halt at an OUT slot that no longer works, the newer at the working one. -/
def twoOuts : State :=
  let s := withLay lay (running.setSlot 9 (readySlot .out 10))
  let t := busy 9 2 10 (.deliver .beltA) (busy 7 4 10 (.deliver .beltB) s (.delivery 0 1)) (.delivery 0 0)
  { t with delivery := ⟨false, [⟨0, .block, 9000, 72000, .cut, .beltA, true, false, 0⟩, ⟨0, .block, 8000, 72000, .cut, .beltB, true, false, 1⟩],
      [], [], 2⟩ }
/-- Each DELIVER's DONE takes its own piece and counts it; a refusal unposts its own. -/
theorem test_deliver_takes_its_piece :
    let left := fun (c : Instr) => (ran c twoOuts).delivery.pieces.map fun p => (p.number, p.posted)
    let counted := fun (c : Instr) => ((ran c twoOuts).lay? 0).map fun l => (l.blocksA, l.blocksB)
    left (.done 8 4 0) = [(0, true)] ∧ counted (.done 8 4 0) = some (0, 1) ∧
      left (.done 10 2 0) = [(1, true)] ∧ counted (.done 10 2 0) = some (1, 0) ∧
      left (.refused 8 4 .cannot) = [(0, true), (1, false)] := by decide +kernel
/-- A draining lay that reaches the TABLE in STOPPING posts no order and lets the cell stop; one whose push-out has begun posts it. -/
theorem test_stopping_begins_no_phase :
    let inBuffer := resting .draining (some .buffer)
    let s := { withLay inBuffer (busy 2 4 10 (.moveLay .buffer .table) (cellIn .stopping) (.arbiter 0)) with
      zones := { running.zones with buffer := ⟨some 0, none⟩, table := ⟨none, some 0⟩ } }
    let t := ran (.done 3 4 0) s
    let pushing := { resting .draining (some .table) with phase := some .pushing }
    let v := ran (.done 5 4 0) { withLay pushing (busy 4 4 10 .release (cellIn .stopping)) with
      seq := ⟨.unknown, .unknown, none, some .pushing⟩ }
    (t.lay? 0).map Lay.phase = some (some .pushing) ∧ t.cell.state = .standby ∧ t.sequencing 0 = false ∧
      (v.slot 3).inFlight.map (fun i => i.order.kind) = some .pushOut := by decide +kernel
/-- A HELD lay released in STOPPING waits with its turn for RUNNING. -/
theorem test_release_in_stopping :
    let turning := { heldLay .requested .cutting (some .table) with phase := some .turning }
    let t := ran (.layControlRelease 7 0) (withLay turning { cellIn .stopping with
      programs := running.programs.set 21 (some [.invert]), seq := ⟨.released, .known 132000 true, none, none⟩ })
    (t.lay? 0).map (fun l => (l.state, l.phase)) = some (.cutting, some .turning) ∧ t.sequencing 0 = false := by decide +kernel
/-- A CELL origin joins a STOP once, a DIRECT each time. -/
theorem test_join : (Order.join ⟨.stop, [.cell false, .direct 7]⟩ ⟨.stop, [.cell false]⟩).sources = [.cell false, .direct 7] ∧
    (Order.join ⟨.stop, [.cell false, .direct 7]⟩ ⟨.stop, [.direct 7]⟩).sources = [.cell false, .direct 7, .direct 7] := by decide
theorem test_unknown_node : (ran (.pos 31 0 0) running).link.sStats.unknownNode = 1 := by decide +kernel
theorem test_start : (ran (.start 7) (cellIn .standby)).cell.state = .starting ∧
    ((ran (.start 7) (cellIn .standby)).slot 8).inFlight.map (fun i => i.order.kind) = some (.enable true) := by decide +kernel
theorem test_program_loads : (ran (.loadProgram 7 63 [⟨1, 9000⟩, endStep]) running).program 63 =
    some [.trim 9000, .endProgram .auto] := by decide +kernel

/-! ### States and operands that meet the hypotheses of the obligations, clause by clause -/

/-- Every timer runs with time left: a stroke timer one millisecond before its end. -/
def ticking : State :=
  let s := permitted .stroke
  { s with
    intake := { s.intake with fill := some ⟨5210, 1⟩ }
    gate := { s.gate with window := some 1, timer := some ⟨999, 1000⟩ }
    cell := { s.cell with idle := some 1, settle := some 1, lockWait := some 1 } }

theorem test_meets_EmptyQueueStep : heldReset.pending = [] ∧ heldReset.resetHeld = true ∧
    ({ running with intake := { running.intake with fill := some ⟨5210, 0⟩ } } : State).pending = [] ∧ ticking.pending = [] ∧
    ticking.resetHeld = false ∧ (∀ f, ticking.intake.fill = some f → f.left ≠ 0) ∧
    (∀ x ∈ ticking.slots, ∀ i, x.inFlight = some i → i.left ≠ 0) ∧ ticking.gate.window ≠ some 0 ∧
    (∀ t, ticking.gate.timer = some t → t.elapsed < t.limit) ∧ ticking.cell.idle ≠ some 0 ∧ ticking.cell.settle ≠ some 0 ∧
    ticking.cell.lockWait ≠ some 0 ∧ ticking.intake.tickets = [] :=
  ⟨by decide +kernel, by decide +kernel, by decide +kernel, by decide +kernel, by decide +kernel, some_of (by decide +kernel),
    fun x hx => some_of (by revert x; decide +kernel), by decide +kernel, some_of (by decide +kernel), by decide +kernel,
    by decide +kernel, by decide +kernel, by decide +kernel⟩

/-- No command waits, RESET_N is high, neither the fill timer nor an order timer has run down. -/
def unhurried (s : State) : Bool :=
  s.pending.isEmpty && !s.resetHeld && s.intake.fill.all (fun f => decide (f.left ≠ 0)) &&
    s.slots.all fun x => x.inFlight.all fun i => decide (i.left ≠ 0)

/-- Each timer run down with those before it absent, an order and an IDENT run down in slot 3, and an admission due. -/
theorem test_meets_EmptyQueueStep_due :
    let gate := fun w t => ({ running with gate := { running.gate with window := w, timer := t } } : State)
    let cell := fun i se l => ({ running with cell := { running.cell with idle := i, settle := se, lockWait := l } } : State)
    ((busy 3 15 0 (.move 0) running).intake.fill = none ∧ (∀ j < 3, ((busy 3 15 0 (.move 0) running).slot j).inFlight = none) ∧
      ((busy 3 15 0 (.move 0) running).slot 3).inFlight.any (fun i => decide (i.left = 0)) = true) ∧
    ((busy 3 15 0 .ident running).slot 3).inFlight.any (fun i => decide (i.left = 0 ∧ i.order.kind = .ident)) = true ∧
    (unhurried (gate (some 0) none) = true ∧ (gate (some 0) none).gate.window = some 0) ∧
    (unhurried (gate none (some ⟨1000, 1000⟩)) = true ∧ (gate none (some ⟨1000, 1000⟩)).gate.window ≠ some 0) ∧
    (unhurried (cell (some 0) none none) = true ∧ (cell (some 0) none none).gate.window = none ∧
      (cell (some 0) none none).gate.timer = none) ∧
    (unhurried (cell (some 1) (some 0) none) = true ∧ (cell (some 1) (some 0) none).cell.settle = some 0) ∧
    (unhurried (cell none none (some 0)) = true ∧ (cell none none (some 0)).cell.lockWait = some 0) := by decide +kernel

/-- The invariant holds of the state after reset, and a step from it is a next state. -/
theorem test_meets_StepKeepsInvariant : State.reset.shaped ∧ State.reset.queuesBounded ∧ State.reset.jobsDistinct ∧
    State.reset.gate.sound ∧ State.reset.events.classesFixed ∧ State.reset.events.countersBounded ∧ State.reset.haltExplained := by
  unfold State.shaped State.queuesBounded State.jobsDistinct Gate.sound EventUnit.classesFixed EventUnit.countersBounded
    State.haltExplained
  decide +kernel

theorem test_meets_ResetLines : heldReset.resetHeld = true ∧ State.reset.resetHeld = false := by decide +kernel

theorem test_meets_HeldResetTakesNothing : heldReset.resetHeld = true ∧ Instr.ringUp ≠ .powerOn ∧ Instr.ringUp ≠ .resetNAssert ∧
    Instr.ringUp ≠ .resetNRelease := by decide +kernel

theorem test_meets_FillTimer : running.resetHeld = false ∧ running.intake.fill = none ∧ ticking.intake.fill = some ⟨5210, 1⟩ := by
  decide +kernel

/-- Two lays in AWAIT_JOB behind one that is not; the Fill Request absent, for their job, or for a job no lay waits for. -/
def awaiting (fill : Option FillRequest) : State :=
  { running with
    lays := [some lay, some (resting .awaitJob none), some (resting .awaitJob none)] ++ List.replicate 5 none
    order := [0, 2, 1], intake := { running.intake with fill := fill } }

theorem test_meets_FillRule : (awaiting none).order = [0] ++ 2 :: [1] ∧ (awaiting none).lay? 0 = some lay ∧
    (awaiting (some ⟨5210, 1⟩)).lay? 2 = some (resting .awaitJob none) ∧ (resting .awaitJob none).job = 5210 ∧
    (∀ n ∈ (awaiting (some ⟨5211, 1⟩)).order, ((awaiting (some ⟨5211, 1⟩)).lay? n).all (fun l => decide (l.job ≠ 5211)) = true) ∧
    (withLay lay running).intake.fill = none ∧ (withLay lay running).order = [0] ∧ lay.state ≠ .awaitJob := by decide +kernel

theorem test_meets_OrderTimers : (busy 3 15 0 (.move 0) running).resetHeld = false ∧
    ((busy 3 15 0 (.move 0) running).slot 3).inFlight = some ⟨15, ⟨.move 0, [.sequence 0 false]⟩, 0⟩ ∧
    ((busy 3 15 0 .ident running).slot 3).inFlight = some ⟨15, ⟨.ident, [.sequence 0 false]⟩, 0⟩ ∧
    ((busy 3 15 0 .ident running).slot 3).state ≠ .probing ∧
    ((busy 3 15 0 .ident (running.setSlot 3 { running.slot 3 with state := .probing })).slot 3).state = .probing := by decide +kernel

theorem test_meets_GateTimers : (permitted .opened).gate.state = .opened ∧ (permitted .opened).gate.permit = some ⟨0, 0, 3⟩ ∧
    (permitted .stroke).gate.state = .stroke ∧ (permitted .stroke).gate.permit = some ⟨0, 0, 3⟩ ∧
    (permitted .stroke).resetHeld = false := by decide +kernel

theorem test_meets_CellTimers : ticking.cell.idle.isSome = true ∧ running.cell.idle = none ∧ ticking.cell.settle.isSome = true ∧
    ticking.guardLocked = true ∧ (ticking.setSlot 8 (readySlot .guard 9)).guardLocked = false ∧ running.cell.settle = none ∧
    ticking.cell.lockWait.isSome = true ∧ running.cell.lockWait = none := by decide +kernel

/-- A waking order outstanding, and a lay's order outstanding. -/
def awaited (st : CellState) : State := busy 4 2 10 (.enable true) (cellIn st) (.cell true)

theorem test_meets_CellRule : (awaited .starting).awaiting = true ∧ (awaited .waking).awaiting = true ∧
    (∀ st, (cellIn st).awaiting = false ∧ (cellIn st).guardLocked = true) ∧ (cellIn .waking).cell.lockWait = none ∧
    (cellIn .waking).cell.params.wakeSettle ≠ 0 ∧ (cellIn .probing).slots.any (fun x => decide (x.state = .probing)) = false ∧
    (((cellIn .probing).setSlot 3 { readySlot .gauge 4 with state := .probing }).slots.any fun x => decide (x.state = .probing)) = true ∧
    (cellIn .stopping).gate.state = .closed ∧ running.lays.all Option.isNone = true ∧ running.cell.params.idlePark ≠ 0 ∧
    (withLay lay running).lays.all Option.isNone = false := by
  refine ⟨by decide +kernel, by decide +kernel, fun st => ?_, by decide +kernel, by decide +kernel, by decide +kernel, by decide +kernel,
    by decide +kernel, by decide +kernel, by decide +kernel, by decide +kernel⟩
  cases st <;> decide +kernel

theorem test_meets_ParkTest : (cellIn .parking).cell.state = .parking ∧ (cellIn .parking).awaiting = false ∧
    (awaited .parking).cell.state = .parking ∧ (awaited .parking).awaiting = true ∧ running.cell.state ≠ .parking := by decide +kernel

theorem test_meets_Entries : (cellIn .halted).cell.state = .halted ∧ CellState.standby ≠ .halted ∧ (cellIn .running).cell.state ≠ .halted ∧
    listening.kindsReady = false ∧ running.kindsReady = true ∧ running.guardClosed = true ∧
    (running.setSlot 8 { readySlot .guard 9 with guard := some ⟨true, false⟩ }).kindsReady = true ∧
    (running.setSlot 8 { readySlot .guard 9 with guard := some ⟨true, false⟩ }).guardClosed = false := by decide +kernel

def ticket : Ticket := ⟨5210, 1, 6000, none, none, none⟩

/-- Every record live. -/
def full : State := { running with lays := List.replicate 8 (some lay), order := [0, 1, 2, 3, 4, 5, 6, 7] }

/-- Tickets waiting, one record free, the job known or not. -/
def waitingTicket (jobs : List JobEntry) : State :=
  { full with lays := full.lays.set 7 none, intake := { full.intake with tickets := [ticket, ticket], jobs := jobs } }

theorem test_meets_Admission : (waitingTicket []).intake.tickets = ticket :: [ticket] ∧ (waitingTicket []).freeRecord = some 7 ∧
    (waitingTicket [job]).job? ticket.job = some job ∧ (waitingTicket []).job? ticket.job = none ∧ running.intake.tickets = [] ∧
    full.freeRecord = none := by decide +kernel

/-- A lay that waits for its job at each limit of the size checks and one above it; its program empty and loaded. -/
theorem test_meets_Binding :
    let p := running.cell.params
    let l : Lay := { resting .awaitJob none with x := some p.gaugeMax, y := some p.tableWidth, height := p.clampMaxH }
    l.state = .awaitJob ∧ (l.x.getD job.defaultX ≤ p.gaugeMax ∧ l.y.getD job.defaultY ≤ p.tableWidth ∧ l.height ≤ p.clampMaxH) ∧
      p.gaugeMax < ({ l with x := some (p.gaugeMax + 1) } : Lay).x.getD 0 ∧
      p.tableWidth < ({ l with y := some (p.tableWidth + 1) } : Lay).y.getD 0 ∧
      p.clampMaxH < ({ l with height := p.clampMaxH + 1 } : Lay).height ∧ (withLay l running).lay? 0 = some l ∧
      running.program job.program = none ∧ ((permitted .opened).program job.program).isSome = true := by decide +kernel

/-! The station's reports: the node 6 is the knife's slot, 9 the guard's, 10 no slot's. -/

theorem test_hears : running.hears 6 5 ∧ running.hears 9 8 ∧ running.hears 3 2 ∧ (permitted .opened).hears 6 5 ∧
    (permitted .stroke).hears 6 5 ∧ (busy 5 3 10 .ident running).hears 6 5 := by unfold State.hears; decide +kernel

theorem test_meets_IdentAns : ((busy 5 3 10 .ident running).slot 5).inFlight = some ⟨3, ⟨.ident, [.sequence 0 false]⟩, 10⟩ ∧
    ((busy 5 3 10 .ident running).slot 5).kind? = some .knife ∧ ((busy 5 3 10 .ident running).slot 5).kind? ≠ some .guard ∧
    (∀ i, ((permitted .stroke).slot 5).inFlight = some i → i.order.kind ≠ .ident) :=
  ⟨by decide +kernel, by decide +kernel, by decide +kernel, some_of (by decide +kernel)⟩

theorem test_meets_Answers : ((permitted .stroke).slot 5).inFlight.map InFlight.tag = some (3 : Byte).toNat ∧
    (∀ i, ((permitted .stroke).slot 5).inFlight = some i → i.tag ≠ (4 : Byte).toNat) :=
  ⟨by decide +kernel, some_of (by decide +kernel)⟩

theorem test_meets_PosAndGuardState : (running.slot 8).kind? = some .guard ∧ (running.slot 5).kind? ≠ some .guard := by decide +kernel

theorem test_meets_StrokeBegin : (running.slot 5).kind? = some .knife ∧ (running.slot 2).kind? ≠ some .knife ∧
    (permitted .opened).working .knife = some 5 ∧ (∃ p, (permitted .opened).gate.permit = some p ∧ p.tag = (3 : Byte).toNat) ∧
    running.gate.state ≠ .opened ∧ running.gate.permit = none ∧ (permitted .stroke).gate.state ≠ .opened ∧
    (permitted .stroke).gate.permit = some ⟨0, 0, 3⟩ :=
  ⟨by decide +kernel, by decide +kernel, by decide +kernel, ⟨⟨0, 0, 3⟩, by decide +kernel, by decide +kernel⟩, by decide +kernel,
    by decide +kernel, by decide +kernel, by decide +kernel⟩

theorem test_meets_Button : (running.slot 5).caps.any Caps.button = true ∧ (running.slot 5).config = some (config .knife 6) ∧
    (config .knife 6).button = .stopCell ∧
    ([ButtonAction.none, .notify].all fun b =>
      ((running.setSlot 5 { running.slot 5 with config := some { config .knife 6 with button := b } }).slot 5).config.any fun c =>
        decide (c.button = b)) = true ∧
    ((running.setSlot 5 { running.slot 5 with caps := none }).slot 5).caps.any Caps.button = false := by decide +kernel

theorem test_meets_UnknownNode : running.link.ringUp = true ∧ running.slotAt 10 = none ∧ running.slotAt 31 = none ∧
    running.slotAt 0 = none ∧ State.reset.link.ringUp = false := by decide +kernel

theorem test_meets_ReportedValues : running.agenda = [] ∧ (running.slot 8).kind? = some .guard ∧
    exec (.pos 6 0 0) running = .next (ran (.pos 6 0 0) running) := ⟨by decide +kernel, by decide +kernel, rfl⟩

/-! The links. -/

theorem test_listens : listening.listens ∧ running.listens ∧ full.listens := by unfold State.listens; decide +kernel

theorem test_meets_UPortLock : State.reset.link.uLock = false ∧ State.reset.mgmt = [] ∧ State.reset.resetHeld = false ∧
    listening.link.uLock = true ∧ listening.link.ringUp = true := by decide +kernel

/-- Requests in the queue and answers in the list, with the lock still to be gained. -/
def unlocked (mgmt : List MgmtEntry) (answers : List UFrame) : State :=
  { listening with
    mgmt := mgmt, events := State.blank.events
    link := { listening.link with uLock := false, answers := answers } }

theorem test_meets_UPortLock_requests :
    let queue : List MgmtEntry := [⟨8, [0, 1]⟩, ⟨9, [0, 2]⟩, ⟨10, [0, 3]⟩]
    let gained := fun (s : State) => takeFrame { s with link := { s.link with uLock := true } }
    (unlocked queue []).mgmt = queue ∧ (unlocked queue []).link.uLock = false ∧ (gained (unlocked queue [])).replyWaits = false ∧
      (gained (unlocked queue [⟨.directAnswer, 5, 1, []⟩, ⟨.reply, 0, 7, [0, 0]⟩])).replyWaits = true ∧
      (gained (unlocked queue [⟨.directAnswer, 5, 1, []⟩])).link.sending.isSome = true ∧
      (gained (unlocked queue [⟨.directAnswer, 5, 1, []⟩])).replyWaits = false ∧
      (ran .uPortLockGained (unlocked queue [⟨.directAnswer, 5, 1, []⟩])).mgmt = queue.tail ∧
      (ran .uPortLockGained (unlocked queue [⟨.directAnswer, 5, 1, []⟩])).replyWaits = true ∧
      (ran .uPortLockGained (unlocked queue [])).mgmt = queue.tail.tail ∧
      (ran .uPortLockGained (unlocked queue [])).replyWaits = true := by decide +kernel

/-- A frame being sent, a REPLY waiting, and requests in the queue. -/
def replying (mgmt : List MgmtEntry) : State :=
  { listening with
    mgmt := mgmt
    link := { listening.link with sending := some ⟨.notice, 0, 0, [0, 0, 0, 0, 0, 0]⟩, answers := [⟨.reply, 0, 7, [0, 0]⟩] } }

def entry : MgmtEntry := ⟨8, [0, 1]⟩

theorem test_meets_FrameEnds : listening.link.sending = none ∧ (replying [entry]).link.sending.isSome = true ∧ listening.mgmt = [] ∧
    (replying [entry]).mgmt = [entry] ∧
    (takeFrame { replying [entry] with link := { (replying [entry]).link with sending := none } }).replyWaits = false ∧
    (takeFrame { replying [entry] with link := { (replying [entry]).link with
      sending := none, answers := [⟨.directAnswer, 5, 1, []⟩, ⟨.reply, 0, 7, [0, 0]⟩] } }).replyWaits = true ∧
    listening.link.leaving = none ∧ (permitted .opened).link.ringUp = true := by decide +kernel

/-- The transmitter sends nothing that is a REPLY and two requests wait: the first's REPLY is taken at once, the second's waits. -/
def notifying (mgmt : List MgmtEntry) : State :=
  { listening with
    mgmt := mgmt, events := State.blank.events
    link := { listening.link with sending := some ⟨.notice, 0, 0, [0, 0, 0, 0, 0, 0]⟩ } }

theorem test_meets_FrameEnds_two : (notifying [entry, entry, entry]).mgmt = entry :: entry :: [entry] ∧
    (notifying [entry, entry, entry]).replyWaits = false ∧ (notifying [entry, entry, entry]).resetHeld = false ∧
    (ran .uPortFrameEnd (notifying [entry, entry, entry])).mgmt = [entry] ∧
    (ran .uPortFrameEnd (notifying [entry, entry, entry])).replyWaits = true := by decide +kernel

theorem test_meets_Transmitter : State.reset.link.uLock = false ∧ listening.link.sending = none ∧ listening.link.answers = [] ∧
    (listening.events.kindAt 0).owed = some (.none, 0) ∧ (∀ j < 0, (listening.events.kindAt j).owed = none) ∧
    (∀ i < 32, ((ran .powerOn (ran .uPortLockGained heldReset)).events.kindAt i).owed = none ∨ i = 0) ∧
    (∀ i < 32, (heldReset.events.kindAt i).owed = none) ∧ heldReset.link.copies = [] ∧
    (replying []).link.answers = [⟨.reply, 0, 7, [0, 0]⟩] ∧ listening.link.copies.length < 8 ∧
    8 ≤ (List.replicate 8 (⟨5, 6, 0, .button⟩ : Copy)).length := by decide +kernel

theorem test_meets_BadFrame : receive .u true [2, 0, 7, 1, 11, 0, 0] = .rejected 2 (some .check) ∧
    receive .u false [] = .rejected 1 (some .framing) ∧ receive .s true (Envelope.bytes ⟨9, 6, 0, [9]⟩) = .rejected 6 none ∧
    ([] : List Byte).length < 6 ∧ [2, 0, 7, 1, (11 : Byte)].length < 6 ∧ [(0 : Byte), 0].length ≠ (1 : Byte).toNat + 2 := by
  decide +kernel

/-- Checks 2 to 4: a frame has a sum of two bytes, and not every two bytes are it; lengths 240 and 241; kinds no port receives. -/
theorem test_meets_BadFrame_envelope : (∀ bytes, ∃ hi lo, be16 (crc bytes) = [hi, lo]) ∧
    be16 (crc [2, 0, 7, 1, 11]) ≠ [0, 0] ∧ 240 < (241 : Byte).toNat ∧ (240 : Byte).toNat ≤ 240 ∧
    (List.replicate 241 (0 : Byte)).length = (241 : Byte).toNat ∧ ((4 : Byte) ≠ 1 ∧ (4 : Byte) ≠ 2 ∧ (4 : Byte) ≠ 3 ∧ (8 : Byte) ≠ 9) :=
  ⟨fun _ => ⟨_, _, rfl⟩, by decide +kernel, by decide, by decide, by decide +kernel, by decide⟩

/-- Checks 5 and 6 of a TICKET and a MGMT: payload lengths, and a face of code 3. -/
theorem test_meets_BadFrame_ticket : (List.replicate 16 (3 : Byte)).length ≠ 17 ∧ (List.replicate 17 (3 : Byte)).length = 17 ∧
    (¬∃ t, ticketInRange t = true ∧ encodeTicket t = List.replicate 17 3) ∧ (1 : Byte) ≠ 0 ∧ [(0 : Byte)] ≠ [] := by
  refine ⟨by decide, by decide, ?_, by decide, by decide⟩
  rintro ⟨t, _, h⟩
  have hl : (encodeTicket t).getLast? = some (byteOf (faceCode t.face)) := by simp [encodeTicket]
  rw [h] at hl
  revert hl
  cases t.face with
  | none => decide
  | some f => cases f <;> decide

/-- Checks 5 and 6 of a DIRECT: CLAMP without its level and with level 9, the addresses 0 and 31, and the code 18 at 5 and 6 bytes. -/
theorem test_meets_BadFrame_direct : (orderCode (.clamp 1) = (10 : Byte).toNat ∧ (encodeOrder (.clamp 1)).length ≠ [(10 : Byte)].length ∧
      (encodeOrder (.clamp 1)).length = [(10 : Byte), 9].length) ∧ (¬∃ q, orderInRange q = true ∧ encodeOrder q = [10, 9]) ∧
    (0 : Byte).toNat < 1 ∧ 30 < (31 : Byte).toNat ∧ (∀ o, orderCode o ≠ (18 : Byte).toNat) ∧
    [(18 : Byte), 0, 0, 0, 0].length ≤ 5 ∧ ¬[(18 : Byte), 0, 0, 0, 0, 0].length ≤ 5 := by
  refine ⟨by decide, ?_, by decide, by decide, fun o => by cases o <;> simp [orderCode], by decide, by decide⟩
  rintro ⟨q, hq, h⟩
  have hc : orderCode q = 10 := by
    have := congrArg (fun l => (l.headD 0).toNat) h
    revert this
    cases q <;> simp [encodeOrder, orderCode, byteOf]
  cases q <;> simp [orderCode] at hc
  rename_i level
  simp [orderInRange, within] at hq
  simp [encodeOrder, orderArgs, byteOf] at h
  have := congrArg BitVec.toNat h.2
  simp at this
  omega

/-- Checks 5 and 6 of a REPORT: PRESENCE without its flag and with flag 2, the address 32, and the code 9. -/
theorem test_meets_BadFrame_report : (reportCode (.presence true) = (7 : Byte).toNat ∧
      (encodeReport (.presence true)).length ≠ [(7 : Byte)].length ∧ (encodeReport (.presence true)).length = [(7 : Byte), 2].length) ∧
    (¬∃ q, encodeReport q = [7, 2]) ∧ 31 < (32 : Byte).toNat ∧ (∀ r, reportCode r ≠ (9 : Byte).toNat) := by
  refine ⟨by decide, ?_, by decide, fun r => by cases r <;> simp [reportCode]⟩
  rintro ⟨q, h⟩
  cases q with
  | presence up => cases up <;> exact absurd h (by decide)
  | _ => simp [encodeReport, reportCode, byteOf] at h

theorem test_meets_Ticket : ticketInRange ticket = true ∧ ticketInRange { ticket with job := 65535, height := 400000 } = true ∧
    ticketInRange { ticket with job := 0 } = false ∧ running.intake.tickets = [] ∧ running.freeRecord.isSome = true ∧
    full.freeRecord = none ∧ (waitingTicket []).intake.tickets.length < 4 ∧ (waitingTicket []).intake.tickets ≠ [] ∧
    4 ≤ ({ full with intake := { full.intake with tickets := List.replicate 4 ticket } } : State).intake.tickets.length := by
  decide +kernel

theorem test_awaitsRequest : listening.awaitsRequest ∧ running.awaitsRequest ∧ (∀ st, (cellIn st).awaitsRequest) := by
  refine ⟨?_, ?_, fun st => ?_⟩
  · unfold State.awaitsRequest; decide +kernel
  · unfold State.awaitsRequest; decide +kernel
  · cases st <;> (unfold State.awaitsRequest; decide +kernel)

theorem test_meets_Mgmt : 1 ≤ [(0 : Byte)].length ∧ [(0 : Byte)].length ≤ 240 ∧ (replying [entry, entry, entry]).link.sending.isSome = true ∧
    (replying [entry, entry, entry]).replyWaits = true ∧ (replying [entry, entry, entry]).mgmt.length < 4 ∧
    4 ≤ (replying [entry, entry, entry, entry]).mgmt.length := by decide +kernel

/-- A DIRECT MOVE is in the permission set of a PARKED cell's slot 3; GAUGE's own order; CLAMP's is not. -/
def parked : State := cellIn .parked

theorem test_meets_Direct : orderInRange (.move 400000) = true ∧ orderInRange (.move 400001) = false ∧ running.listens ∧
    16 ≤ ({ running.link with credit := 16 } : LinkUnit).credit ∧
    parked.link.credit < 16 ∧ parked.slotAt 10 = none ∧ parked.slotAt 4 = some 3 ∧ parked.slotAt 1 = some 0 ∧
    (parked.slot 3).state = .ready ∧ (∀ kind, actionKind .stop = some kind → (parked.slot 3).kind? = some kind) ∧
    OrderKind.stop ≠ .stroke ∧ OrderKind.stop ≠ .ident ∧
    (∃ c, (parked.slot 3).config = some c ∧ c.permitted.getLsbD (orderCode .stop) = true) ∧
    (∀ c, (parked.slot 3).config = some c → c.permitted.getLsbD (orderCode (.move 0)) = false) ∧ (actionKind .stop).isSome = false ∧
    (parked.slot 3).posted.length < 4 ∧ (running.slot 5).state = .ready :=
  ⟨by decide +kernel, by decide +kernel, test_listens.2.1, by decide +kernel, by decide +kernel, by decide +kernel, by decide +kernel,
    by decide +kernel, by decide +kernel, some_of (by decide +kernel), by decide +kernel, by decide +kernel, ⟨config .gauge 4, by decide +kernel, by decide +kernel⟩,
    some_of (by decide +kernel), by decide +kernel, by decide +kernel, by decide +kernel⟩

/-- An action order in the permission set of a cell that is not in motion, and the slot's posted queue full. -/
theorem test_meets_Direct_action :
    let c : SlotConfig := { config .gauge 4 with permitted := 0x3ffff }
    let s := parked.setSlot 3 { parked.slot 3 with config := some c, posted := List.replicate 4 ⟨.move 0, [.direct 0]⟩ }
    (∀ kind, actionKind (.move 0) = some kind → (s.slot 3).kind? = some kind) ∧ (s.slot 3).state = .ready ∧
      c.permitted.getLsbD (orderCode (.move 0)) = true ∧ (s.cell.state ≠ .starting ∧ s.cell.state ≠ .running) ∧
      4 ≤ (s.slot 3).posted.length :=
  ⟨some_of (by decide +kernel), by decide +kernel, by decide +kernel, by decide +kernel, by decide +kernel⟩

theorem test_meets_RoundTrips : ticketInRange ticket = true ∧ orderInRange (.present 400000) = true ∧ orderInRange (.rotate 3) = true ∧
    ([] : List Byte).length ≤ 238 ∧ ([endStep] : List RawStep).length ≤ 255 := by decide +kernel

/-! Management requests. -/

theorem test_meets_ReadRows : 8 ≤ (8 : BitVec 16).toNat ∧ (7 : BitVec 16).toNat < 8 ∧ running.lay? 7 = none ∧ full.lay? 7 = some lay ∧
    12 ≤ (12 : BitVec 16).toNat ∧ (11 : BitVec 16).toNat < 12 ∧ running.job? 65535 = none ∧ (waitingTicket [job]).job? 5210 = some job ∧
    64 ≤ (64 : BitVec 16).toNat ∧ (63 : BitVec 16).toNat < 64 ∧ (waitingTicket [job]).link.uLock = true := by decide +kernel

theorem test_meets_BadRequest : parseRequest [13] = none ∧ parseRequest [11, 0] = none ∧
    240 < (List.replicate 241 (13 : Byte)).length := by decide +kernel

theorem test_meets_LoadCell : State.reset.cell.params.ok = true ∧
    (State.reset.cell.params.load { noLoad with gaugeMax := some 400000, gaugeMin := some 400000 }).ok = true ∧
    (State.reset.cell.params.load { noLoad with gaugeMax := some 400001 }).ok = false ∧
    (State.reset.cell.params.load { noLoad with gaugeMin := some 132001 }).ok = false ∧ (cellIn .parked).resting = false ∧
    (cellIn .off).resting = true ∧ (cellIn .standby).resting = true ∧ (cellIn .halted).resting = true := by decide +kernel

theorem test_meets_LoadSlot : slotConfigOf slotLoad = some
      { kind := .knife, node := 12, timeout := 60000, button := .stopCell, lamp := .auto, forward := true, permitted := 0x3ffff
        removable := false } ∧
    slotConfigOf { slotLoad with node := 31 } = none ∧ slotConfigOf { slotLoad with kind := 9 } = none ∧
    (∃ j < (cellIn .off).slots.length, j ≠ 9 ∧ (((cellIn .off).slot j).config.any fun d => decide (d.node = 6)) = true) ∧
    (∀ j < (cellIn .off).slots.length, j ≠ 11 → (((cellIn .off).slot j).config.any fun d => decide (d.node = 12)) = false) ∧
    ((11 : Byte).toNat < 12 ∧ 12 ≤ (12 : Byte).toNat) ∧ (State.reset.slot 3).orders = [] ∧ (running.slot 3).orders = [] ∧
    11 < running.slots.length :=
  ⟨by decide +kernel, by decide +kernel, by decide +kernel, ⟨5, by decide +kernel⟩, by decide +kernel, by decide +kernel,
    by decide +kernel, by decide +kernel, by decide +kernel⟩

theorem test_meets_LoadSeverity : classOfCode 5 = none ∧ classOfCode 4 = some .cell ∧ classOfCode 1 = some .note ∧
    (running.events.kindAt 31).cls = .cell ∧ fixedKind 31 = true ∧ fixedKind 24 = false ∧ (running.events.kindAt 24).cls = .lay ∧
    (31 : Byte).toNat < 32 ∧ 32 ≤ (32 : Byte).toNat := by decide +kernel

theorem test_meets_LoadProgram : programOf [] = none ∧ programOf [⟨1, 0⟩, endStep] = none ∧ programOf [endStep, endStep] = none ∧
    programOf (List.replicate 41 endStep) = none ∧ programOf [endStep] = some [.endProgram .auto] ∧
    (programOf (List.replicate 39 ⟨1, 9000⟩ ++ [endStep])).isSome = true ∧ ((permitted .opened).program 21).isSome = true ∧
    (permitted .opened).lay? 0 = some { lay with phase := some .stroking, target := some 93000 } ∧ running.program 63 = none ∧
    (63 : Byte).toNat < 64 ∧ 64 ≤ (64 : Byte).toNat ∧ (permitted .opened).awaitsRequest := by
  unfold State.awaitsRequest; decide +kernel

/-- The Job Map full: the least recent entry pinned or not. -/
def fullJobs (pinned : Bool) : List JobEntry :=
  (List.range 31).map (fun k => { job with job := k + 1, pinned := true }) ++ [{ job with job := 32, pinned := pinned }]

theorem test_meets_LoadJob : jobEntryOf jobLoad = some ⟨5210, 21, 102000, 72000, 5, .beltA, 1000, true⟩ ∧
    jobEntryOf { jobLoad with press := 9 } = none ∧ (∀ f ∈ fullJobs false, f.job ≠ 5210) ∧ 32 ≤ (fullJobs false).length ∧
    (fullJobs false = (fullJobs false).take 31 ++ { job with job := 32, pinned := false } :: []) ∧
    (∀ f ∈ fullJobs true, f.pinned = true) ∧ ([] : List JobEntry).length < 32 := by decide +kernel

theorem test_meets_DropJob : (∃ e ∈ fullJobs true, e.job = (32 : BitVec 16).toNat) ∧
    (∀ e ∈ fullJobs true, e.job ≠ (33 : BitVec 16).toNat) :=
  ⟨⟨{ job with job := 32, pinned := true }, by decide +kernel⟩, by decide +kernel⟩

theorem test_meets_Start : (cellIn .standby).kindsReady = true ∧
    (∃ g, (cellIn .standby).guardState = some g ∧ g.isOpen = false) ∧ (cellIn .standby).gate.state ≠ .lockedOut ∧
    listening.kindsReady = false ∧ (cellIn .stopping).cell.state = .stopping ∧ (cellIn .off).cell.state ≠ .standby :=
  ⟨by decide +kernel, ⟨⟨false, true⟩, by decide +kernel⟩, by decide +kernel, by decide +kernel, by decide +kernel, by decide +kernel⟩

theorem test_meets_AckHalt : (∃ g, ((cellIn .halted).setSlot 8 { readySlot .guard 9 with guard := some ⟨true, false⟩ }).guardState = some g ∧
      g.isOpen = true) ∧
    (¬∃ g, (cellIn .halted).guardState = some g ∧ g.isOpen = true) ∧ (cellIn .halted).cell.state = .halted ∧
    (cellIn .probing).cell.state = .probing ∧ (cellIn .running).cell.state ≠ .halted :=
  ⟨⟨⟨true, false⟩, by decide +kernel⟩, fun ⟨g, hg, ho⟩ => by
      have : (some ⟨false, true⟩ : Option GuardState) = some g := hg
      simp only [Option.some.injEq] at this; subst this; simp at ho,
    by decide +kernel, by decide +kernel, by decide +kernel⟩

theorem test_meets_CellReset : ¬((cellIn .running).cell.state = .off ∨ (cellIn .running).cell.state = .standby) ∧
    (running.slot 5).config.isSome = true ∧ (running.slot 11).config = none ∧ 11 < running.slots.length := by decide +kernel

/-- A slot in AUTO whose lamp blinks and one whose lamp does not, a DIRECT order in flight. -/
theorem test_meets_CellReset_slots :
    let auto : SlotConfig := { config .gauge 4 with lamp := .auto }
    let s := busy 3 15 5 (.move 0) ((cellIn .halted).setSlot 3 { readySlot .gauge 4 with config := some auto }) (.direct 7)
    s.awaitsRequest ∧ s.cell.state = .halted ∧ (s.slot 3).config = some auto ∧ (s.slot 3).lamp ≠ .blink ∧
      ((ran (.cellReset 7) s).link.answers.map UFrame.kind) = [.directAnswer, .reply] := by
  unfold State.awaitsRequest; decide +kernel

/-- A lay in each situation a HOLD tells apart: DRAINING, FINISHING, being lowered, in PUSHING, abandon wanted; HELD or hold wanted; at
rest; in motion. The same lays serve ABANDON, with a lay at rest in BUFFER and one that a move has reserved a zone for. -/
def laysAt : List Lay :=
  [resting .draining (some .jog), resting .finishing none, resting .moving (some .lift), { lay with phase := some .pushing },
    { lay with abandonWanted := true }, heldLay .requested .waiting (some .buffer), { lay with holdWanted := true },
    resting .awaitJob none, resting .queued none, resting .waiting (some .lift), resting .waiting (some .buffer),
    resting .jogging (some .jog), lay]

theorem test_meets_Hold : (∀ l ∈ laysAt, (withLay l running).awaitsRequest ∧ (withLay l running).lay? 0 = some l) ∧
    (∀ l ∈ laysAt, (withLay l running).reservedFor 0 = false) ∧ (withLay lay running).lay? 7 = none ∧ (7 : Byte).toNat < 8 ∧
    8 ≤ (8 : Byte).toNat := by
  unfold State.awaitsRequest; decide +kernel

theorem test_meets_Release :
    let s := withLay (heldLay (.event .sizeLimit 0) .queued none) running
    (s.recheck (heldLay .requested .waiting (some .buffer)) = none) ∧
    s.recheck { heldLay (.event .sizeLimit 0) .queued none with x := some 400000 } ≠ none ∧
    s.recheck (heldLay (.event .badStep 21) .queued none) = some (.badStep, 21) ∧
    (heldLay (.event .programPause 0) .cutting (some .table)).heldFrom = some .cutting ∧ s.classOf .badStep = .lay ∧
    s.classOf .nullCut ≠ .lay := by decide +kernel

/-- HELD from AWAIT_JOB with its job in the map and not; held by SIZE_LIMIT at each limit and above it; by BAD_STEP with the program
empty. -/
theorem test_meets_Release_checks :
    let p := running.cell.params
    let sized : Lay := { heldLay (.event .sizeLimit 0) .queued none with x := some p.gaugeMax, y := some p.tableWidth, height := p.clampMaxH }
    let stepped := heldLay (.event .badStep 21) .queued none
    (heldLay .requested .awaitJob none).heldFrom = some .awaitJob ∧ (waitingTicket [job]).job? (heldLay .requested .awaitJob none).job = some job ∧
      running.job? (heldLay .requested .awaitJob none).job = none ∧ sized.state = .held ∧ sized.cause = some (.event .sizeLimit 0) ∧
      (sized.x.getD 0 ≤ p.gaugeMax ∧ sized.y.getD 0 ≤ p.tableWidth ∧ sized.height ≤ p.clampMaxH) ∧
      stepped.cause = some (.event .badStep 21) ∧ stepped.heldFrom = some .queued ∧ stepped.program = some 21 ∧
      running.program 21 = none ∧ ((permitted .opened).program 21).isSome = true ∧ (withLay stepped running).awaitsRequest := by
  unfold State.awaitsRequest; decide +kernel

theorem test_meets_Abandon : (resting .draining (some .jog)).eff = .draining ∧ (resting .moving (some .lift)).eff = .moving ∧
    (heldLay .requested .moving (some .jog)).eff = .moving ∧ (heldLay .requested .waiting (some .buffer)).eff ≠ .moving ∧
    (heldLay .requested .waiting (some .buffer)).eff ≠ .finishing ∧ (resting .queued none).zone = none ∧
    (resting .waiting (some .lift)).zone = some .lift ∧ running.working .lift = some 0 := by decide +kernel

/-- HELD on the TABLE with the clamp down or up; in LIFT to be lowered, with and without a LIFT slot, its LOWER outstanding or not. -/
theorem test_meets_Abandon_lower :
    let onTable := withLay (heldLay .requested .cutting (some .table)) running
    let s := withLay (resting .moving (some .lift)) { running with zones := { running.zones with lift := ⟨some 0, none⟩ } }
    onTable.seq.clamp ≠ .released ∧
      ({ onTable with seq := ⟨.released, .unknown, none, none⟩ } : State).seq.clamp = .released ∧
      (heldLay .requested .cutting (some .table)).eff = .cutting ∧
      s.zones.lift.occupant = some 0 ∧ s.lay? 0 = some (resting .moving (some .lift)) ∧ s.reservedFor 0 = false ∧
      s.arbitrating 0 = false ∧ s.working .lift = some 0 ∧ (busy 0 2 5 .lower s (.arbiter 0)).arbitrating 0 = true ∧
      (s.setSlot 0 (State.reset.slot 0)).working .lift = none ∧ (s.setSlot 0 (State.reset.slot 0)).arbitrating 0 = false ∧
      (cellIn .standby).cell.state ≠ .running := by decide +kernel

/-- At a boundary with an abandon or a hold wanted, in each zone, and in CUTTING with an order outstanding; HELD with an abandon that waits,
its move ended or under way. -/
theorem test_meets_Boundary :
    let wanting := fun (l : Lay) => ({ l with abandonWanted := true } : Lay)
    let s := withLay (wanting lay) running
    let held := wanting (heldLay .requested .waiting (some .jog))
    s.lay? 0 = some (wanting lay) ∧ (wanting lay).state = .cutting ∧ (wanting lay).phase = none ∧ (∀ m < 0, s.lay? m = none) ∧
      boundaryRule running = none ∧ ({ lay with holdWanted := true } : Lay).abandonWanted = false ∧
      (∀ z ∈ [none, some ZoneId.lift, some .jog, some .buffer, some .table], (wanting (resting .waiting z)).zone = z) ∧
      (busy 3 2 10 (.move 0) s).sequencing 0 = true ∧ s.sequencing 0 = false ∧ s.permitted 0 = false ∧ s.arbitrating 0 = false ∧
      held.state = .held ∧ held.abandonWanted = true ∧ held.heldFrom ≠ some .moving ∧
      (wanting (heldLay .requested .moving (some .jog))).heldFrom = some .moving := by decide +kernel

def record : Summary := lay.summary 0

theorem test_meets_TakeDelivery :
    let s := withLay (resting .finishing none) { running with delivery := { running.delivery with
      records := List.replicate 16 record, finishQueue := [0] } }
    s.awaitsRequest ∧ s.delivery.records = record :: List.replicate 15 record ∧ s.delivery.finishQueue = [0] ∧
      s.lay? 0 = some (resting .finishing none) ∧ running.delivery.records = [] ∧ running.delivery.finishQueue = [] := by
  unfold State.awaitsRequest; decide +kernel

/-- A FINISHING lay with room in the list, with none, and with a piece left. -/
theorem test_meets_FinishTest :
    let s := withLay (resting .finishing none) running
    let piece : Piece := ⟨0, .waste, 1, 1, .cut, .chute, false, false, 0⟩
    s.lay? 0 = some (resting .finishing none) ∧ (resting .finishing none).eff = .finishing ∧ 0 ∉ s.delivery.finishQueue ∧
      s.delivery.pieces = [] ∧ s.delivery.records.length < 16 ∧ ¬(List.replicate 16 record).length < 16 ∧
      (∃ q ∈ [piece], q.lay = 0) := by decide +kernel

/-! Inside an event. -/

theorem test_meets_Event : running.events.kinds.length = 32 ∧ (running.events.kindAt EventKind.started.index).cls = .note ∧
    (running.events.kindAt EventKind.nullCut.index).cls = .advisory ∧ (running.events.kindAt EventKind.badStep.index).cls = .lay ∧
    (running.events.kindAt EventKind.strokeTimeout.index).cls = .cell ∧ (withLay lay running).lay? 0 = some lay ∧
    0 ∉ (withLay lay running).delivery.finishQueue ∧ lay.state ≠ .held ∧ (withLay lay running).permitted 0 = false ∧
    (heldLay .requested .waiting none).state = .held ∧ (permitted .opened).gate.state = .opened ∧
    (permitted .opened).permitted 0 = true ∧ (permitted .stroke).gate.state = .stroke ∧ (permitted .stroke).permitted 0 = true ∧
    (permitted .stroke).events.deferred = none ∧ running.cell.state.isHalting = true ∧ (cellIn .standby).cell.state.isHalting = false := by
  decide +kernel

/-- The subject is no lay, a free record or in the finish queue; the halt's effects; an event that has settled. -/
theorem test_meets_Event_halt : running.lay? 3 = none ∧ (running.events.kindAt EventKind.badStep.index).cls = .lay ∧
    0 ∈ ({ withLay lay running with delivery := ⟨false, [], [0], [], 0⟩ } : State).delivery.finishQueue ∧
    (permitted .stroke).gate.permit = some ⟨0, 0, 3⟩ ∧ (permitted .stroke).zones.table.occupant = some 0 ∧
    running.gate.state = .closed ∧ running.zones.table.occupant = none ∧ (running.worked []).agenda = [] ∧
    settleRules.length = 14 ∧ deliverRule (withLay lay running) = none := by decide +kernel

theorem test_meets_Piece : (withLay lay running).lay? 0 = some lay ∧ lay.mode = some .beltA ∧
    { lay with mode := some .alternate }.mode = some DeliveryMode.alternate := by decide +kernel

/-- Two pieces of a lay, the first posted and the second due; an OUT slot, and none. -/
theorem test_meets_Deliver :
    let p : Piece := ⟨0, .block, 9000, 72000, .cut, .beltA, true, false, 0⟩
    let q : Piece := { p with posted := false, number := 1 }
    let s := { withLay lay running with delivery := ⟨false, [p, q], [], [], 2⟩ }
    s.lay? 0 = some lay ∧ lay.state ≠ .held ∧ s.working .out = some 7 ∧ State.reset.working .out = none ∧
      s.delivery.pieces = [p] ++ q :: [] ∧ q.posted = false ∧ q.late = false ∧ p.lay = 0 ∧ p.number ≠ q.number ∧
      s.delivery.pieces = [] ++ p :: [q] := by decide +kernel

theorem test_meets_StepEvaluation : lay.runs = none ∧ lay.step = some 0 ∧ lay.x = some 102000 ∧ 102000 = 11 * 9000 + 3000 ∧
    3000 < 9000 ∧ 102000 = 1 * 102000 + 0 ∧ 102000 = 0 * 102001 + 102000 ∧ running.cell.params.gaugeMin = 2500 ∧
    running.cell.params.gaugeMax = 132000 ∧ (Step.endProgram .auto).isEnd = true ∧ (Step.press 5).repeatable = false ∧
    (Step.press 5).isEnd = false := by decide +kernel

/-- Runs absent, at 0, at 1 and at 256; a turn that fits and one that does not; the step start on the TABLE in RUNNING. -/
theorem test_meets_StepEvaluation_runs :
    let s := { withLay lay running with programs := running.programs.set 21 (some [.trim 9000, .endProgram .auto]) }
    s.zones.table.occupant = some 0 ∧ s.lay? 0 = some lay ∧ s.stepOf lay = some (.trim 9000) ∧ lay.phase = none ∧
      [none, some 1, some 256].all (fun r => decide (({ lay with runs := r } : Lay).runs ≠ some 0)) = true ∧
      (Step.trim 9000).repeatable = true ∧ 72000 ≤ running.cell.params.gaugeMax ∧ 102000 ≤ running.cell.params.tableWidth ∧
      running.cell.params.tableWidth < running.cell.params.tableWidth + 1 ∧ (heldLay .requested .cutting (some .table)).state = .held ∧
      ({ lay with runs := some 3 } : Lay).runs = some 3 ∧ lay.state = .cutting := by
  decide +kernel

/-- The program slot empty; the lay on the TABLE not held, with the clamp down or up. -/
theorem test_meets_StepEvaluation_empty :
    let s := withLay lay running
    s.zones.table.occupant = some 0 ∧ s.lay? 0 = some lay ∧ lay.program = some 21 ∧ s.program 21 = none ∧ lay.state ≠ .held ∧
      lay.zone = some .table ∧ s.seq.clamp ≠ .released ∧ ({ s with seq := ⟨.released, .unknown, none, none⟩ } : State).seq.clamp = .released := by
  decide +kernel

/-- The permit's STROKE in OPEN and in STROKE, a deferred hold or none; a STROKE of another slot and of another tag; no permit; no KNIFE. -/
theorem test_meets_StrokeEnds :
    (permitted .opened).gate.state = .opened ∧ (permitted .opened).gate.permit = some ⟨0, 0, 3⟩ ∧
      (permitted .opened).working .knife = some 5 ∧ twoKnives.gate.state = .stroke ∧ twoKnives.working .knife ≠ some 9 ∧
      (twoKnives.gate.permit.all fun p => decide (p.tag ≠ 2)) = true ∧ running.gate.state = .closed ∧ running.gate.permit = none ∧
      (permitted .lockedOut).gate.state = .lockedOut ∧ State.reset.working .knife = none ∧ End.timedOut.isDone = false ∧
      (⟨0, .gaugeLimit, 0⟩ : DeferredHold).lay = 0 := by decide +kernel

theorem test_meets_StrokeDone :
    let s := permitted .stroke
    s.gate.state = .stroke ∧ s.gate.permit = some ⟨0, 0, 3⟩ ∧ s.events.deferred = none ∧ s.gate.timer = some ⟨610, 1000⟩ ∧
      s.working .knife = some 5 ∧
      (s.lay? 0).any (fun l => decide (l.state = .cutting) && decide (l.step = some 0) && decide (l.x = some 102000) && decide (l.y = some 72000) &&
        decide (l.target = some 93000) && decide (s.stepOf l = some (.trim 9000))) = true := by decide +kernel

theorem test_meets_Permit :
    let s := permitted .opened
    let t := ({ s with gate := { s.gate with state := .closed, permit := none, window := none } }).setSlot 5 { readySlot .knife 6 with position := some .top }
    t.duePermit = some 0 ∧ t.working .knife = some 5 ∧ 5 < t.slots.length := by decide +kernel

theorem test_meets_OrderIsPosted :
    let x := running.slot 3
    x.completesLocally (.enable true) = false ∧ (State.reset.slot 0).completesLocally (.enable true) = true ∧
      x.posted.length < 4 ∧ x.state = .ready ∧ x.inFlight = none ∧ x.waiting = [] ∧ x.lampPending = none ∧
      x.config = some (config .gauge 4) ∧ running.link.ringUp = true ∧ running.link.leaving = none ∧
      ({ x with posted := ⟨.move 0, [.sequence 0 false]⟩ :: List.replicate 3 ⟨.pushOut, [.sequence 0 false]⟩ } : Slot).posted =
        ⟨.move 0, [.sequence 0 false]⟩ :: List.replicate 3 ⟨.pushOut, [.sequence 0 false]⟩ := by decide +kernel

/-- A posted queue of four: orders that may give way with and without younger STOPs, orders of CELL alone; a STOP that joins, is announced, goes
to the head. -/
theorem test_meets_Placing :
    let x := running.slot 3
    let move : Order := ⟨.move 0, [.sequence 0 false]⟩
    let stop : Order := ⟨.stop, [.gate 0]⟩
    let enable : Order := ⟨.enable true, [.cell true]⟩
    (∀ c ∈ move.sources, c.lay?.isSome = true) ∧ 4 ≤ [move, move, stop, enable].length ∧
      [move, move, stop, enable] = [move] ++ move :: [stop, enable] ∧ Order.givesWay move = true ∧ Order.givesWay stop = false ∧
      Order.givesWay enable = false ∧ enable.sources = [.cell true] ∧ x.completesLocally .stop = false ∧ x.announced = none ∧
      x.inFlight = none ∧ ((busy 3 2 10 (.move 0) running).slot 3).inFlight.isSome = true ∧ move.kind ≠ .stop ∧ stop.kind = .stop ∧
      x.state = .ready ∧ [enable, move, stop, stop] = [enable] ++ move :: [stop, stop] ∧ 3 < running.slots.length := by decide +kernel

/-- What slot 3 sends in PROBING, in FAULTED and in READY with a lamp value pending; an order's end, DONE or not, at the working GAUGE slot. -/
theorem test_meets_Sending :
    let x := { running.slot 3 with lampPending := some .blink, posted := [⟨.move 0, [.direct 7]⟩] }
    x.inFlight = none ∧ x.state = .ready ∧ x.posted = ⟨.move 0, [.direct 7]⟩ :: [] ∧ OrderKind.move 0 ≠ .stop ∧ OrderKind.move 0 ≠ .stroke ∧
      ({ x with state := .faulted } : Slot).lampPending = some .blink ∧ ({ x with state := .probing } : Slot).state = .probing ∧
      (∃ u, (running.setSlot 3 x).slotSend 3 = some u) ∧ (∀ j < 3, running.slotSend j = none) ∧ (∀ j < 12, running.slotSend j = none) ∧
      running.working .gauge = some 3 ∧ (End.refused .cannot).isDone = false ∧ (End.done 0).isDone = true ∧
      [Source.direct 7] ≠ [.lamp] :=
  ⟨by decide +kernel, by decide +kernel, by decide +kernel, by decide +kernel, by decide +kernel, by decide +kernel, by decide +kernel,
    ⟨_, rfl⟩, by decide +kernel, by decide +kernel, by decide +kernel, by decide +kernel, by decide +kernel, by decide +kernel⟩

/-- A READY slot in AUTO that wants OFF and shows it, one that shows ON, and a FAULTED one. -/
theorem test_meets_Lamps :
    let auto := fun (w : LampState) => ({ readySlot .gauge 4 with config := some { config .gauge 4 with lamp := .auto }, wanted := w } : Slot)
    ((running.setSlot 3 (auto .off)).slot 3).wanted = .off ∧ ((running.setSlot 3 (auto .on)).slot 3).wanted ≠ .off ∧
      (auto .on).orders = [] ∧ ({ auto .off with state := .faulted } : Slot).wanted ≠ .blink ∧ 3 < running.slots.length ∧
      (∀ j < 3, (running.slot j).config.all (fun c => decide (c.lamp ≠ .auto)) = true) := by decide +kernel

theorem test_meets_ArbiterOrderEnds : (resting .moving (some .lift)).state = .moving ∧ (End.refused .aborted).isAborted = true ∧
    Reason.cannot ≠ .aborted ∧ (withLay (resting .moving (some .lift)) running).lay? 0 = some (resting .moving (some .lift)) := by
  decide +kernel

/-- The arbiter's own choices: the head unpresented lay with LIFT free; a request into the TABLE beside one into JOG; a lay that jogs. -/
theorem test_meets_ArbiterPosts :
    let q := withLay (resting .queued none) running
    let b := withLay (resting .waiting (some .buffer)) { running with zones := { running.zones with buffer := ⟨some 0, none⟩ } }
    let j := withLay (resting .jogging (some .jog)) { running with zones := { running.zones with jog := ⟨some 0, none⟩ } }
    (q.order = [] ++ 0 :: [] ∧ q.lay? 0 = some (resting .queued none) ∧ q.zones.lift = ⟨none, none⟩ ∧ q.working .lift = some 0 ∧
      (q.slot 0).state = .ready) ∧
      (b.dueMove = some ((.buffer, .table), 0) ∧ b.duePermit = none ∧ running.dueMove = none ∧ b.working .xfer = some 2) ∧
      (j.zones.jog.occupant = some 0 ∧ (resting .jogging (some .jog)).jogTime = some 1000 ∧ j.arbitrating 0 = false ∧
        j.working .jog = some 1 ∧ (j.setSlot 1 (State.reset.slot 0)).working .jog = none ∧
        (busy 1 2 5 (.jog 1000) j (.arbiter 0)).arbitrating 0 = true) := by decide +kernel

theorem test_meets_SequencerOrderEnds : (∀ p ∈ [Phase.positioning, .clamping, .releasing, .turning, .pushing],
    (withLay { lay with phase := some p } running).lay? 0 = some { lay with phase := some p }) ∧ lay.state = .cutting ∧
    lay.step = some 0 ∧ lay.x = some 102000 ∧ lay.y = some 72000 ∧ running.seq.inHand = none ∧
    (heldLay .requested .cutting (some .table)).heldFrom = some .cutting ∧ (resting .draining (some .table)).eff = .draining ∧
    lay.abandoned = false ∧ ({ lay with abandoned := true } : Lay).abandoned = true ∧
    State.stepOf { running with programs := running.programs.set 21 (some [.endProgram .auto]) } lay = some (.endProgram .auto) := by
  decide +kernel

/-- The lay on the TABLE in a phase, the clamp down or up, a piece in hand or none; a draining lay; winding back in STOPPING. -/
theorem test_meets_Phases :
    let s := fun (st : CellState) (l : Lay) (q : Sequencer) => ({ withLay l (cellIn st) with
      seq := q, programs := running.programs.set 21 (some [.trim 9000, .turn 1, .invert, .endProgram .auto]) } : State)
    let cut := s .running { lay with phase := some .positioning, target := some 93000 } ⟨.released, .unknown, none, none⟩
    let hand := s .stopping { lay with phase := some .releasing } ⟨.released, .unknown, some ⟨0, .waste, 9000, 72000⟩, some .releasing⟩
    let turn := s .stopping { lay with phase := some .turning, step := some 1 } ⟨.released, .known 132000 true, none, some .turning⟩
    let drained := { resting .draining (some .table) with phase := some .releasing }
    (cut.zones.table.occupant = some 0 ∧ cut.working .clamp = some 4 ∧ cut.working .gauge = some 3 ∧ cut.sequencing 0 = false ∧
      cut.stepOf { lay with phase := some .positioning } = some (.trim 9000) ∧ cut.seq.clamp = .released ∧
      (2500 ≤ 102000 - 9000 ∧ 102000 - 9000 ≤ cut.cell.params.gaugeMax) ∧
      (s .running lay ⟨.unknown, .unknown, none, none⟩).seq.clamp ≠ .released ∧ (busy 3 2 5 (.move 0) cut).sequencing 0 = true) ∧
      (hand.seq.inHand.isSome = true ∧ hand.sequencing 0 = false ∧ hand.permitted 0 = false ∧ (permitted .stroke).permitted 0 = true) ∧
      (turn.stepOf { lay with step := some 1 } = some (.turn 1) ∧ turn.stepOf { lay with step := some 2 } = some .invert ∧
        turn.seq.gauge = .known turn.cell.params.gaugeMax true ∧ turn.working .turn = some 6 ∧
        (turn.setSlot 6 (State.reset.slot 0)).working .turn = none) ∧
      (¬(s .stopping drained ⟨.released, .unknown, none, none⟩).begunStands = true ∧ turn.begunStands = true ∧
        (s .stopping drained ⟨.released, .unknown, none, some .pushing⟩).begunStands = false) ∧
      (s .running drained ⟨.released, .unknown, none, none⟩).lay? 0 = some drained ∧ drained.eff = .draining ∧ Reason.cannot ≠ .aborted ∧
      (s .stopping lay ⟨.released, .unknown, none, none⟩).seq.gauge ≠ .known 132000 true ∧ End.timedOut.isDone = false := by decide +kernel

end Sys2Proof.Tests
end

section
/-! The invariant holds after a reset and is kept by every step: one lemma for each command whose effect is the state's own (a reset, a
port's lock, a frame's end, the passing of time), then the dispatcher. -/

namespace Sys2Proof.Machine

/-! ### Power-on values -/

theorem initial_classesFixed : EventUnit.initial.classesFixed := by
  unfold EventUnit.classesFixed; decide

theorem initial_countersBounded : EventUnit.initial.countersBounded := by
  unfold EventUnit.countersBounded; decide

/-- That STARTED is taken changes no kind's class. -/
theorem started_cls (detail i : Nat) : ((EventUnit.started detail).kindAt i).cls = (EventUnit.initial.kindAt i).cls := by
  cases i <;> rfl

theorem started_classesFixed (detail : Nat) : (EventUnit.started detail).classesFixed := fun i hi => by
  rw [started_cls]; exact initial_classesFixed i hi

theorem started_countersBounded (detail : Nat) : (EventUnit.started detail).countersBounded := by
  intro r hr
  rcases List.mem_cons.mp hr with rfl | hr
  · show 1 ≤ 65535
    decide
  · exact initial_countersBounded r (List.mem_of_mem_tail hr)

/-- Every record of the Lay Table is free after power-on (R1). -/
theorem blank_lay? (n : Nat) : State.blank.lay? n = none := by
  show ((List.replicate 8 (none : Option Lay))[n]?).getD none = none
  rw [List.getElem?_replicate]; split <;> rfl

theorem sound_blank : State.blank.Sound where
  left := {
    jobs := ⟨by decide, List.nodup_nil⟩
    copies := by decide
    records := by decide
    pieces := ⟨List.nodup_nil, by simp [State.blank]⟩
    order := ⟨List.nodup_nil, by simp [State.blank], fun n _ hl => by simp [blank_lay?] at hl⟩
    holds := fun n l hl => by simp [blank_lay?] at hl
    gate := by simp [Gate.sound, State.blank]
    counters := initial_countersBounded
    halt := by simp [State.haltExplained, State.blank, EventUnit.initial]
    slots := fun x hx => by rw [List.eq_of_mem_replicate hx]; exact unused_ok
    frames := ⟨by simp [State.blank, LinkUnit.initial], List.nodup_nil⟩
    sFlags := by simp [RxFlags.summed, State.blank, LinkUnit.initial, RxFlags.clear] }
  right := {
    lays := rfl
    programs := rfl
    slots := rfl
    kinds := rfl
    tickets := by decide
    mgmt := by decide
    credit := by decide
    classes := initial_classesFixed
    uFlags := by simp [RxFlags.summed, State.blank, LinkUnit.initial, RxFlags.clear] }

theorem sound_wiped (s : State) : s.wiped.Sound := ⟨{ sound_blank.1 with }, { sound_blank.2 with }⟩

theorem sound_begun (detail : Nat) (s : State) : (s.begun detail).Sound :=
  sound_events (sound_wiped s) (started_countersBounded detail) rfl rfl (started_classesFixed detail)

theorem sound_reset : State.reset.Sound :=
  sound_events sound_blank (started_countersBounded 0) rfl rfl (started_classesFixed 0)

/-! ### The links' conditions -/

theorem sound_loseLock {s : State} (h : s.Sound) : (loseLock s).Sound := by
  obtain ⟨hg, hf⟩ := sound_countU h fun t => { t with lockLosses := bump32 t.lockLosses }
  exact ⟨{ hg with }, { hf with }⟩

theorem sound_gainLock {s : State} (h : s.Sound) : (s.setLink { s.link with uLock := true }).Sound := ⟨{ h.1 with }, { h.2 with }⟩

theorem sound_ringRises {s : State} (h : s.Sound) : (s.setLink { s.link with ringUp := true }).Sound := ⟨{ h.1 with }, { h.2 with }⟩

theorem sound_frameEnds {s : State} (h : s.Sound) : (frameEnds s).Sound := by
  unfold frameEnds
  split
  · exact h
  · rename_i f _
    obtain ⟨hg, hf⟩ := sound_countU h (UStats.sent f.kind)
    exact sound_pumpAll ⟨{ hg with }, { hf with }⟩

/-- The frames that still wait are some of those that waited. -/
theorem sound_orderFrameEnds {s : State} (h : s.Sound) : (orderFrameEnds s).Sound := by
  obtain ⟨hg, hf⟩ := sound_countS h fun t => { t with orders := bump32 t.orders }
  unfold orderFrameEnds
  split
  · exact h
  · dsimp only
    split
    · exact ⟨{ hg with }, { hf with }⟩
    · rename_i f rest hout
      obtain ⟨htags, hnodup⟩ := h.1.frames
      rw [hout] at htags hnodup
      exact ⟨{ hg with frames := ⟨fun g hgm => htags g (List.mem_cons_of_mem f hgm), (List.nodup_cons.mp hnodup).2⟩ }, { hf with }⟩

/-! ### The part's own time -/

/-- Each event that falls due keeps the invariant. -/
theorem sound_dueEvent {s : State} {e : State → Effect} (h : s.Sound) (he : dueEvent s = some e) : (e s).1.Sound := by
  unfold dueEvent at he
  repeat' split at he
  all_goals cases he
  · exact sound_fill h
  · exact sound_ident h _
  · exact sound_order h _
  · exact sound_window h
  · exact sound_stroke h
  · exact sound_idle h
  · exact sound_settleE h
  · exact sound_lockWait h
  · exact sound_admitTicket h

theorem sound_idleStep {s : State} (h : s.Sound) : (idleStep s).Sound := by
  unfold idleStep
  refine sound_unlessReset h fun h => ?_
  split
  · rename_i e he
    exact State.Sound.event (sound_dueEvent h he)
  · exact sound_passTime h

/-! ### Every command, every step -/

/-- A command out of reset is one event: it is sound where its primary effect is. -/
theorem sound_unlessReset_event {s : State} {prim : State → Effect} (h : s.Sound) (hp : (prim s).1.Sound) :
    (unlessReset (event prim) s).Sound :=
  sound_unlessReset h fun _ => State.Sound.event hp

/-- Every command answers a state that keeps the invariant. The commands not named are frames that arrive. -/
theorem sound_exec {s : State} (h : s.Sound) (c : Instr) : ∃ t, exec c s = .next t ∧ t.Sound := by
  cases c with
  | powerOn => exact ⟨_, rfl, sound_begun 0 s⟩
  | resetNAssert => exact ⟨_, rfl, { (sound_wiped s).1 with }, { (sound_wiped s).2 with }⟩
  | resetNRelease =>
    refine ⟨_, rfl, ?_⟩
    split
    · exact sound_begun 1 s
    · exact h
  | identAns | done | refused | pos | strokeBegin | fault | button | presence | guardState =>
    exact ⟨_, rfl, sound_reportArrives h _ _ _⟩
  | uPortLockGained =>
    refine ⟨_, rfl, sound_unlessReset h fun h => ?_⟩
    split
    · exact h
    · exact sound_pumpAll (sound_gainLock h)
  | uPortLockLost receiving =>
    refine ⟨_, rfl, sound_unlessReset h fun h => ?_⟩
    split
    · exact h
    · split
      · exact State.Sound.event (sound_rejectFrame (sound_loseLock h) _ _ _)
      · exact sound_loseLock h
  | ringUp => exact ⟨_, rfl, sound_unlessReset h sound_ringRises⟩
  | ringDown receiving =>
    refine ⟨_, rfl, sound_unlessReset h fun h => ?_⟩
    split
    · exact State.Sound.event (sound_falls h _)
    · exact h
  | uPortFrameEnd => exact ⟨_, rfl, sound_unlessReset h sound_frameEnds⟩
  | orderFrameEnd => exact ⟨_, rfl, sound_unlessReset h sound_orderFrameEnds⟩
  | fillTimerExpiry => exact ⟨_, rfl, sound_unlessReset_event h (sound_fill h)⟩
  | orderTimerExpiry slot => exact ⟨_, rfl, sound_unlessReset_event h (sound_order h slot)⟩
  | identTimerExpiry slot => exact ⟨_, rfl, sound_unlessReset_event h (sound_ident h slot)⟩
  | permitWindowExpiry => exact ⟨_, rfl, sound_unlessReset_event h (sound_window h)⟩
  | strokeTimerExpiry => exact ⟨_, rfl, sound_unlessReset_event h (sound_stroke h)⟩
  | idleTimerExpiry => exact ⟨_, rfl, sound_unlessReset_event h (sound_idle h)⟩
  | wakeSettleExpiry => exact ⟨_, rfl, sound_unlessReset_event h (sound_settleE h)⟩
  | lockWaitExpiry => exact ⟨_, rfl, sound_unlessReset_event h (sound_lockWait h)⟩
  | admission => exact ⟨_, rfl, sound_unlessReset_event h (sound_admitTicket h)⟩
  | _ => exact ⟨_, rfl, sound_frameArrives h _ _⟩

/-- A step takes the front command, or on an empty queue is the part's own. -/
theorem sound_step {s t : State} (h : s.Sound) (ht : step s = .next t) : t.Sound := by
  unfold step at ht
  split at ht
  · rename_i c rest _
    obtain ⟨u, hu, hsound⟩ := sound_exec (s := { s with pending := rest }) ⟨{ h.1 with }, { h.2 with }⟩ c
    cases hu.symm.trans ht
    exact hsound
  · cases ht
    exact sound_idleStep h

/-- Settles O4: each clause holds of the power-on values, STARTED taken. -/
theorem resetHoldsInvariant : Obligations.ResetHoldsInvariant := (inv_iff State.reset).mpr sound_reset

/-- Settles O5: the invariant as `State.Sound`, kept by what each command does. -/
theorem stepKeepsInvariant : Obligations.StepKeepsInvariant := fun s t h ht =>
  (inv_iff t).mpr (sound_step ((inv_iff s).mp h) ht)

end Sys2Proof.Machine
end

section
/-! Requests to a lay (LAY_CONTROL), and the takings of a wanted hold or abandon inside an event: one equation for each case of the
functions of the Lay Table, then the statements put together from them. -/

namespace Sys2Proof.Machine

/-! ### How a LAY_CONTROL request is answered -/

/-- A LAY_CONTROL request is answered as `layControl` answers it. -/
theorem layControl_arrives {s : State} (h : s.awaitsRequest) (tag lay action : Byte) {a : Answer}
    (ha : layControl lay action s.taking = a) :
    requestArrives tag (.layControl lay action) s = .next (a.state.answered tag (.layControl lay action) a.result a.body) := by
  subst ha
  exact request_arrives tag _ (by simp [encodeRequest, requestArgs]) h (parseRequest_layControl lay action)

theorem layControl_badArg {lay : Byte} (action : Byte) (s : State) (hn : 8 ≤ lay.toNat) :
    layControl lay action s = refuse .badArg s := if_pos hn

theorem layControl_notFound {s : State} {lay : Byte} (action : Byte) (hn : lay.toNat < 8) (hl : s.lay? lay.toNat = none) :
    layControl lay action s = refuse .notFound s := by
  unfold layControl
  simp only [if_neg (Nat.not_le.mpr hn), hl]

section
variable {s : State} {lay : Byte} {l : Lay} (hn : lay.toNat < 8) (hl : s.lay? lay.toNat = some l)
include hn hl

theorem layControl_hold : layControl lay 0 s = doHold lay.toNat l s := by
  unfold layControl
  simp only [if_neg (Nat.not_le.mpr hn), hl]
  rfl

theorem layControl_release : layControl lay 1 s = doRelease lay.toNat l s := by
  unfold layControl
  simp only [if_neg (Nat.not_le.mpr hn), hl]
  rfl

theorem layControl_abandon : layControl lay 2 s = doAbandon lay.toNat l s := by
  unfold layControl
  simp only [if_neg (Nat.not_le.mpr hn), hl]
  rfl

end

/-! ### Readings of one lay -/

theorem eff_of_held {l : Lay} (h : l.state = .held) : l.eff = l.heldFrom.getD .held := if_pos h

theorem lowering_iff (s : State) (n : Nat) (l : Lay) :
    s.lowering n l = true ↔ l.eff = .moving ∧ l.zone = some .lift ∧ s.reservedFor n = false := by
  simp [State.lowering, and_assoc]

theorem lowering_iff_of_moving {l : Lay} (s : State) (n : Nat) (h : l.state = .moving) :
    s.lowering n l = true ↔ l.zone = some .lift ∧ s.reservedFor n = false := by
  simp [lowering_iff, Lay.eff, h]

@[simp] theorem taking_lowering (s : State) (n : Nat) (l : Lay) : s.taking.lowering n l = s.lowering n l := by
  unfold State.lowering; rw [taking_reservedFor]

/-! ### HOLD (R18) -/

/-- R18's last bullet and the finish queue (R137): the cases in which a HOLD is refused. -/
def State.holdBarred (s : State) (n : Nat) (l : Lay) : Prop :=
  n ∈ s.delivery.finishQueue ∨ l.state = .draining ∨ l.state = .finishing ∨
    (l.state = .moving ∧ l.zone = some .lift ∧ s.reservedFor n = false) ∨
    (l.state = .cutting ∧ l.phase = some .pushing) ∨ l.abandonWanted = true

@[simp] theorem taking_holdBarred (s : State) (n : Nat) (l : Lay) : s.taking.holdBarred n l ↔ s.holdBarred n l := by
  unfold State.holdBarred; rw [taking_delivery, taking_reservedFor]

/-- The record of a lay that enters HELD from another state (R15). -/
def Lay.held (cause : HoldCause) (l : Lay) : Lay :=
  { l with state := .held, heldFrom := some l.state, cause := some cause, holds := bump16 l.holds, holdWanted := false }

theorem hold_of_unheld {s : State} {n : Nat} {l : Lay} (cause : HoldCause) (hl : s.lay? n = some l) (hs : l.state ≠ .held) :
    s.hold n cause = s.setLay n (some (l.held cause)) := by
  rw [State.hold, updateLay_some hl, Lay.hold, if_neg hs]; rfl

theorem doHold_barred {s : State} {n : Nat} {l : Lay} (h : s.holdBarred n l) : doHold n l s = refuse .badState s := by
  unfold doHold
  rw [if_pos]
  simpa only [State.holdBarred, and_congr_right (lowering_iff_of_moving s n (l := l))] using h

section
variable {s : State} {n : Nat} {l : Lay} (h : ¬s.holdBarred n l)
include h

/-- A HOLD that is not refused goes by the lay's state. -/
theorem doHold_free : doHold n l s =
    if l.state = .held ∨ l.holdWanted = true then accept (s, [])
    else if l.state = .awaitJob ∨ l.state = .queued ∨ l.state = .waiting then accept (s.hold n .requested, [])
    else accept (s.updateLay n fun l => { l with holdWanted := true }, []) := by
  unfold doHold
  rw [if_neg]
  simpa only [State.holdBarred, and_congr_right (lowering_iff_of_moving s n (l := l))] using h

theorem doHold_held (hh : l.state = .held ∨ l.holdWanted = true) : doHold n l s = accept (s, []) := by
  rw [doHold_free h, if_pos hh]

theorem doHold_atRest (hl : s.lay? n = some l) (hr : l.state = .awaitJob ∨ l.state = .queued ∨ l.state = .waiting)
    (hw : l.holdWanted = false) : doHold n l s = accept (s.setLay n (some (l.held .requested)), []) := by
  have hs : l.state ≠ .held := by rcases hr with hr | hr | hr <;> simp [hr]
  rw [doHold_free h, if_neg (by simp [hs, hw]), if_pos hr, hold_of_unheld _ hl hs]

theorem doHold_wanted (hl : s.lay? n = some l) (hr : ¬(l.state = .awaitJob ∨ l.state = .queued ∨ l.state = .waiting))
    (hs : l.state ≠ .held) (hw : l.holdWanted = false) :
    doHold n l s = accept (s.setLay n (some { l with holdWanted := true }), []) := by
  rw [doHold_free h, if_neg (by simp [hs, hw]), if_neg hr, updateLay_some hl]

end

/-- Settles O49: the cases of `doHold`, read in the state the request is executed in. -/
theorem holdIsTakenOrWanted : Obligations.HoldIsTakenOrWanted := by
  intro s tag lay h u n r
  refine ⟨fun hn => layControl_arrives h tag lay 0 (layControl_badArg 0 _ hn),
    fun hn hl => layControl_arrives h tag lay 0 (layControl_notFound 0 hn ((taking_lay? s n).trans hl)), fun l hn hl => ?_⟩
  have hl' : u.lay? n = some l := (taking_lay? s n).trans hl
  have free : ¬s.holdBarred n l → ¬u.holdBarred n l := (not_congr (taking_holdBarred s n l)).mpr
  have answer {a : Answer} (ha : doHold n l u = a) := layControl_arrives h tag lay 0 ((layControl_hold hn hl').trans ha)
  exact ⟨fun hb => answer (doHold_barred ((taking_holdBarred s n l).mpr hb)),
    fun hb hh => answer (doHold_held (free hb) hh),
    fun hb hr hw => answer (doHold_atRest (free hb) hl' hr hw),
    fun hb hr hs hw => answer (doHold_wanted (free hb) hl' hr hs hw)⟩

/-! ### RELEASE (R19, R20) -/

theorem doRelease_unheld {s : State} {n : Nat} {l : Lay} (h : l.state ≠ .held) : doRelease n l s = refuse .badState s := if_neg h

theorem doRelease_passes {s : State} {n : Nat} {l : Lay} (h : l.state = .held) (hr : s.recheck l = none) :
    doRelease n l s = accept (s, [.release n]) := by
  rw [doRelease, if_pos h, startRelease, hr]

theorem doRelease_fails {s : State} {n : Nat} {l : Lay} {kind : EventKind} {d : Nat} (h : l.state = .held)
    (hr : s.recheck l = some (kind, d)) :
    doRelease n l s = accept (s, [.raise kind (.lay n) d, .recheckFailed n kind d]) := by
  rw [doRelease, if_pos h, startRelease, hr]

/-- After SIZE_LIMIT the size checks are repeated. -/
theorem recheck_sizeLimit {l : Lay} {d : Nat} (s : State) (h : l.cause = some (.event .sizeLimit d)) :
    s.recheck l = (sizeFailure s.cell.params (l.x.getD 0) (l.y.getD 0) l.height).map fun d => (.sizeLimit, d) := by
  unfold State.recheck; rw [h]; rfl

/-- After BAD_STEP in QUEUED the empty-program check is repeated. -/
theorem recheck_badStep {l : Lay} {d q : Nat} (s : State) (h : l.cause = some (.event .badStep d)) (hf : l.heldFrom = some .queued)
    (hq : l.program = some q) : s.recheck l = if (s.program q).isNone then some (.badStep, q) else none := by
  unfold State.recheck; rw [h, hf, hq]

/-- No other cause has a check to repeat. -/
theorem recheck_none {l : Lay} (s : State) (hs : ¬∃ d, l.cause = some (.event .sizeLimit d))
    (hb : ¬((∃ d, l.cause = some (.event .badStep d)) ∧ l.heldFrom = some .queued) ∨ l.program = none) : s.recheck l = none := by
  unfold State.recheck
  split
  · rename_i d hc
    exact absurd ⟨d, hc⟩ hs
  · rename_i d hc hf
    rcases hb with hb | hb
    · exact absurd ⟨⟨d, hc⟩, hf⟩ hb
    · rw [hb]
  · rfl

/-- The hold is a PAUSE step's, which the release passes (R19, R20). -/
def Lay.paused (l : Lay) : Bool :=
  match l.cause with
  | some (.event .programPause _) => true
  | _ => false

/-- The record of a lay released into a state: past the PAUSE after PROGRAM_PAUSE (R19). -/
def Lay.released (st : LayState) (l : Lay) : Lay :=
  { l with
    state := st
    cause := none
    heldFrom := none
    step := match l.cause with
      | some (.event .programPause _) => l.step.map (· + 1)
      | _ => l.step }

theorem released_eq (st : LayState) (l : Lay) : l.released st = (if l.paused then l.advance else l).unhold st := by
  unfold Lay.released Lay.paused
  split <;> rfl

section
variable {s : State} {n : Nat} {l : Lay} {st : LayState} (hl : s.lay? n = some l) (hs : l.state = .held) (hf : l.heldFrom = some st)
include hl hs hf

theorem releaseLay_eq : releaseLay n s =
    if st = .awaitJob then searchMap n l.job (s.setLay n (some (l.released st))) else (s.setLay n (some (l.released st)), []) := by
  have he : l.eff = st := by rw [eff_of_held hs, hf]; rfl
  rw [releaseLay, hl, released_eq, ← he]
  rfl

theorem releaseLay_goesOn (h : st ≠ .awaitJob) : releaseLay n s = (s.setLay n (some (l.released st)), []) := by
  rw [releaseLay_eq hl hs hf, if_neg h]

theorem releaseLay_misses (h : st = .awaitJob) (hj : s.job? l.job = none) :
    releaseLay n s = (s.setLay n (some (l.released st)), []) := by
  have hj' : (s.setLay n (some (l.released st))).job? l.job = none := hj
  rw [releaseLay_eq hl hs hf, if_pos h, searchMap, hj']

theorem releaseLay_hits {e : JobEntry} (h : st = .awaitJob) (hj : s.job? l.job = some e) : releaseLay n s =
    ({ s.setLay n (some (l.released st)) with intake := s.intake.toFront e }, [.bind n e]) := by
  have hj' : (s.setLay n (some (l.released st))).job? l.job = some e := hj
  rw [releaseLay_eq hl hs hf, if_pos h, searchMap, hj']
  rfl

end

theorem recheckFailed_holds {s : State} {n : Nat} {l : Lay} {kind : EventKind} (d : Nat) (hl : s.lay? n = some l) (hs : l.state = .held)
    (hc : s.classOf kind = .lay) : recheckFailed n kind d s =
      (s.setLay n (some { l with cause := some (.event kind d), holds := bump16 l.holds }), []) := by
  rw [recheckFailed, if_pos hc, updateLay_some hl, if_pos hs]

theorem recheckFailed_releases {s : State} (n : Nat) {kind : EventKind} (d : Nat) (hc : s.classOf kind ≠ .lay) :
    recheckFailed n kind d s = (s, [.release n]) := if_neg hc

/-- Settles O50: the re-check of the request, the return to the held-from state, and a failed re-check. -/
theorem releaseReturnsLay : Obligations.ReleaseReturnsLay := by
  refine ⟨?request, fun s n l st hl hs hf => ⟨releaseLay_goesOn hl hs hf, releaseLay_misses hl hs hf,
    fun e => releaseLay_hits hl hs hf⟩, fun s n l kind d hl hs => ⟨recheckFailed_holds d hl hs, recheckFailed_releases n d⟩⟩
  intro s tag lay h u n r released again
  refine ⟨fun hn => layControl_arrives h tag lay 1 (layControl_badArg 1 _ hn),
    fun hn hl => layControl_arrives h tag lay 1 (layControl_notFound 1 hn ((taking_lay? s n).trans hl)), fun l hn hl => ?_⟩
  intro p x y sized stepped
  have answer {a : Answer} (ha : doRelease n l u = a) :=
    layControl_arrives h tag lay 1 ((layControl_release hn ((taking_lay? s n).trans hl)).trans ha)
  have passes (hs : l.state = .held) (hr : s.recheck l = none) : exec (.layControlRelease tag lay) s = released :=
    answer (doRelease_passes hs ((taking_recheck s l).trans hr))
  have fails {kind : EventKind} {d : Nat} (hs : l.state = .held) (hr : s.recheck l = some (kind, d)) :
      exec (.layControlRelease tag lay) s = again kind d :=
    answer (doRelease_fails hs ((taking_recheck s l).trans hr))
  refine ⟨fun hs => answer (doRelease_unheld hs), fun hs hz hb => passes hs (recheck_none s hz hb), ?size, ?step⟩
  case size =>
    rintro hs ⟨d, hc⟩
    have hr := recheck_sizeLimit s hc
    refine ⟨fun hx hy hh => passes hs ?_, fun hx => fails hs ?_, fun hx hy => fails hs ?_, fun hx hy hh => fails hs ?_⟩
    all_goals rw [hr, sizeFailure]
    · rw [if_neg (Nat.not_lt.mpr hx), if_neg (Nat.not_lt.mpr hy), if_neg (Nat.not_lt.mpr hh)]; rfl
    · rw [if_pos hx]; rfl
    · rw [if_neg (Nat.not_lt.mpr hx), if_pos hy]; rfl
    · rw [if_neg (Nat.not_lt.mpr hx), if_neg (Nat.not_lt.mpr hy), if_pos hh]; rfl
  case step =>
    rintro q hs ⟨⟨d, hc⟩, hf⟩ hq
    have hr := recheck_badStep s hc hf hq
    exact ⟨fun hp => passes hs (by simp [hr, Option.isSome_iff_ne_none.mp hp]), fun hp => fails hs (by simp [hr, hp])⟩

/-! ### How an abandon is taken (R21 to R23) -/

/-- The record of a lay that ends its work in no zone, outcome ABANDONED (R21). -/
def Lay.endsAbandoned (l : Lay) : Lay :=
  { l with
    state := .finishing, cause := none, heldFrom := none, holdWanted := false, abandonWanted := false, abandoned := true
    phase := none }

/-- The record of a lay that is to be lowered (R22). -/
def Lay.toLower (l : Lay) : Lay :=
  { l with state := .moving, cause := none, heldFrom := none, holdWanted := false, abandonWanted := false }

/-- The record of a draining lay in a phase and with a target (R23). -/
def Lay.drains (p : Option Phase) (t : Option Nat) (l : Lay) : Lay :=
  { l with
    state := .draining, cause := none, heldFrom := none, holdWanted := false, abandonWanted := false, abandoned := true
    runs := none, phase := p, target := t }

/-- A draining lay on the TABLE begins in RELEASING: the clamp is down or a piece in hand (R23). -/
def State.drainReleases (s : State) : Prop := s.seq.clamp ≠ .released ∨ s.seq.inHand.isSome = true

theorem drainReleases_iff (s : State) : (s.clampDown || s.seq.inHand.isSome) = true ↔ s.drainReleases := by
  simp [State.drainReleases, State.clampDown]

section
variable {s : State} {n : Nat} {l : Lay} (hl : s.lay? n = some l)
include hl

theorem drain_offTable (hz : l.zone ≠ some .table) : drain n s = s.setLay n (some (l.drains none none)) := by
  simp only [drain, updateLay_some hl, hz, decide_false, Bool.false_eq_true, if_false]; rfl

theorem drain_releasing (hz : l.zone = some .table) (hr : s.drainReleases) :
    drain n s = s.setLay n (some (l.drains (some .releasing) l.target)) := by
  simp only [drain, updateLay_some hl, hz, decide_true, if_true, (drainReleases_iff s).mpr hr]; rfl

theorem drain_pushing (hz : l.zone = some .table) (hr : ¬s.drainReleases) :
    drain n s = s.setLay n (some (l.drains (some .pushing) (some 0))) := by
  simp only [drain, updateLay_some hl, hz, decide_true, if_true, (not_congr (drainReleases_iff s)).mpr hr]; rfl

theorem takeAbandon_noZone (hz : l.zone = none) :
    takeAbandon n s = (s.setLay n (some l.endsAbandoned), [.finishTest n]) := by
  simp only [takeAbandon, hl, Option.bind_some, hz, finishAbandoned, updateLay_some hl]
  rfl

theorem takeAbandon_lift (hz : l.zone = some .lift) : takeAbandon n s = (s.setLay n (some l.toLower), []) := by
  simp only [takeAbandon, hl, Option.bind_some, hz, lower, updateLay_some hl]
  rfl

/-- Outside LIFT a lay in a zone drains. -/
theorem takeAbandon_drains {z : ZoneId} (hz : l.zone = some z) (h : z ≠ .lift) : takeAbandon n s = (drain n s, []) := by
  rw [takeAbandon, hl, Option.bind_some, hz]
  cases z with
  | lift => exact absurd rfl h
  | _ => rfl

theorem takeAbandon_offTable {z : ZoneId} (hz : l.zone = some z) (h : z ≠ .lift) (ht : z ≠ .table) :
    takeAbandon n s = (s.setLay n (some (l.drains none none)), []) := by
  rw [takeAbandon_drains hl hz h, drain_offTable hl (by simpa [hz] using ht)]

theorem takeAbandon_releasing (hz : l.zone = some .table) (hr : s.drainReleases) :
    takeAbandon n s = (s.setLay n (some (l.drains (some .releasing) l.target)), []) := by
  rw [takeAbandon_drains hl hz (by simp), drain_releasing hl hz hr]

theorem takeAbandon_pushing (hz : l.zone = some .table) (hr : ¬s.drainReleases) :
    takeAbandon n s = (s.setLay n (some (l.drains (some .pushing) (some 0))), []) := by
  rw [takeAbandon_drains hl hz (by simp), drain_pushing hl hz hr]

end

/-! ### The ABANDON request -/

/-- An ABANDON is refused: the lay is FINISHING or DRAINING, held from them too, or in PUSHING at END (R21). -/
def Lay.abandonBarred (l : Lay) : Prop :=
  l.eff = .finishing ∨ l.eff = .draining ∨ (l.state = .cutting ∧ l.phase = some .pushing)

/-- The lay rests: HELD, or in a state in which no order of it is under way (R17, R21). -/
def Lay.atRest (l : Lay) : Prop := l.state = .held ∨ l.state = .awaitJob ∨ l.state = .queued ∨ l.state = .waiting

theorem doAbandon_barred {s : State} {n : Nat} {l : Lay} (h : l.abandonBarred) : doAbandon n l s = refuse .badState s := if_pos h

section
variable {s : State} {n : Nat} {l : Lay} (hb : ¬l.abandonBarred)
include hb

/-- An ABANDON that is not refused is taken, or wanted. -/
theorem doAbandon_free : doAbandon n l s = accept (startAbandon n l s) := if_neg hb

theorem doAbandon_lowering (h : s.lowering n l = true) : doAbandon n l s = accept (s, []) := by
  rw [doAbandon_free hb, startAbandon, if_pos h]

theorem doAbandon_wanted (hl : s.lay? n = some l) (hw : ¬s.lowering n l = true) (h : l.eff = .moving ∨ ¬l.atRest) :
    doAbandon n l s = accept (s.setLay n (some { l with abandonWanted := true }), []) := by
  rw [doAbandon_free hb, startAbandon, if_neg hw, updateLay_some hl]
  by_cases hm : l.eff = .moving
  · rw [if_pos hm]
  · rw [if_neg hm]
    exact congrArg accept (if_neg (h.resolve_left hm))

theorem doAbandon_taken (hm : l.eff ≠ .moving) (hr : l.atRest) : doAbandon n l s = accept (takeAbandon n s) := by
  have hw : ¬s.lowering n l = true := fun hw => hm ((lowering_iff s n l).mp hw).1
  rw [doAbandon_free hb, startAbandon, if_neg hw, if_neg hm]
  exact congrArg accept (if_pos hr)

end

/-! ### Phase boundaries (R17, R93) -/

/-- A lay stands at a phase boundary: at rest, JOGGING with no jog outstanding, or CUTTING, but in PUSHING, with no order of the sequencer
outstanding and no permit (log 26). -/
def State.standsAtBoundary (s : State) (n : Nat) (l : Lay) : Prop :=
  l.state = .awaitJob ∨ l.state = .queued ∨ l.state = .waiting ∨ (l.state = .jogging ∧ s.arbitrating n = false) ∨
    (l.state = .cutting ∧ (l.phase = none ∨ (l.phase ≠ some .pushing ∧ s.sequencing n = false ∧ s.permitted n = false)))

theorem atBoundary_iff (s : State) (n : Nat) (l : Lay) : s.atBoundary n l = true ↔ s.standsAtBoundary n l := by
  unfold State.atBoundary State.standsAtBoundary
  cases hs : l.state with
  | cutting =>
    cases hp : l.phase with
    | none => simp
    | some p => cases p <;> simp
  | _ => simp

theorem standsAtBoundary_unheld {s : State} {n : Nat} {l : Lay} (h : s.standsAtBoundary n l) : l.state ≠ .held := by
  rcases h with h | h | h | ⟨h, -⟩ | ⟨h, -⟩ <;> simp [h]

/-- The lay of the number has an abandon or a hold wanted and stands at a phase boundary. -/
def State.wantsAtBoundary (s : State) (n : Nat) : Prop :=
  ∃ l, s.lay? n = some l ∧ (l.abandonWanted = true ∨ l.holdWanted = true) ∧ s.standsAtBoundary n l

theorem wantsAtBoundary_iff (s : State) (n : Nat) :
    ((s.lay? n).any fun l => (l.abandonWanted || l.holdWanted) && s.atBoundary n l) = true ↔ s.wantsAtBoundary n := by
  simp only [Option.any_eq_true, Bool.and_eq_true, Bool.or_eq_true, atBoundary_iff]; rfl

theorem wantedAtBoundary_none {s : State} (h : ∀ n < 8, ¬s.wantsAtBoundary n) : s.wantedAtBoundary = none := by
  refine List.find?_range_eq_none.mpr fun n hn => ?_
  rw [Bool.not_eq_true', Bool.eq_false_iff]
  exact (not_congr (wantsAtBoundary_iff s n)).mpr (h n hn)

theorem wantedAtBoundary_first {s : State} {n : Nat} (hn : n < 8) (h : s.wantsAtBoundary n) (hm : ∀ m < n, ¬s.wantsAtBoundary m) :
    s.wantedAtBoundary = some n := by
  refine List.find?_range_eq_some.mpr ⟨(wantsAtBoundary_iff s n).mpr h, List.mem_range.mpr hn, fun m hmn => ?_⟩
  rw [Bool.not_eq_true', Bool.eq_false_iff]
  exact (not_congr (wantsAtBoundary_iff s m)).mpr (hm m hmn)

theorem boundaryRule_none {s : State} (h : ∀ n < 8, ¬s.wantsAtBoundary n) : boundaryRule s = none := by
  rw [boundaryRule, wantedAtBoundary_none h]; rfl

section
variable {s : State} {n : Nat} {l : Lay} (hn : n < 8) (h : s.wantsAtBoundary n) (hm : ∀ m < n, ¬s.wantsAtBoundary m)
  (hl : s.lay? n = some l)
include hn h hm hl

theorem boundaryRule_abandons (ha : l.abandonWanted = true) : boundaryRule s = some (takeAbandon n s) := by
  rw [boundaryRule, wantedAtBoundary_first hn h hm]
  simp [hl, ha]

theorem boundaryRule_holds (ha : l.abandonWanted = false) :
    boundaryRule s = some (s.setLay n (some (l.held .requested)), []) := by
  have ⟨l', hl', _, hb⟩ := h
  cases hl.symm.trans hl'
  rw [boundaryRule, wantedAtBoundary_first hn h hm]
  simp [hl, ha, hold_of_unheld .requested hl (standsAtBoundary_unheld hb)]

end

/-! ### The end of a HELD lay's present or move -/

/-- A HELD lay's present or move has ended and its abandon waits (log 10). -/
def Lay.abandonsAtMoveEnd (l : Lay) : Prop := l.state = .held ∧ l.abandonWanted = true ∧ l.heldFrom ≠ some .moving

theorem abandonsAtMoveEnd_iff (l : Lay) :
    (decide (l.state = .held) && l.abandonWanted && decide (l.eff ≠ .moving)) = true ↔ l.abandonsAtMoveEnd := by
  simp only [Bool.and_eq_true, decide_eq_true_eq, and_assoc, Lay.abandonsAtMoveEnd]
  refine and_congr_right fun hs => and_congr_right fun _ => ?_
  rw [eff_of_held hs]
  cases l.heldFrom <;> simp

theorem moveEnded_abandons {s : State} {n : Nat} {l : Lay} (hl : s.lay? n = some l) (h : l.abandonsAtMoveEnd) :
    moveEnded n s = takeAbandon n s := by
  rw [moveEnded, hl]; exact if_pos ((abandonsAtMoveEnd_iff l).mpr h)

theorem moveEnded_stands {s : State} {n : Nat} {l : Lay} (hl : s.lay? n = some l) (h : ¬l.abandonsAtMoveEnd) :
    moveEnded n s = (s, []) := by
  rw [moveEnded, hl]; exact if_neg ((not_congr (abandonsAtMoveEnd_iff l)).mpr h)

/-! ### The LOWER of an abandoned lay in LIFT (R22, R73, logs 8 and 9) -/

theorem takesLower_iff (st : CellState) : st.takesLower = true ↔ st = .running ∨ st = .stopping ∨ st = .halted := by
  cases st <;> simp [CellState.takesLower]

section
variable {s : State} {n : Nat} {l : Lay} (ho : s.zones.lift.occupant = some n) (hl : s.lay? n = some l) (hs : l.state = .moving)
  (hz : l.zone = some .lift) (hr : s.reservedFor n = false)
include ho hl hs hz hr

theorem lowerWaits_eq : s.lowerWaits = if s.arbitrating n = true then none else some n := by
  have hw : s.lowering n l = true := (lowering_iff_of_moving s n hs).mpr ⟨hz, hr⟩
  simp only [State.lowerWaits, ho, Option.filter_some, hl, Option.any_some, hs, hw, decide_true, Bool.true_and, Bool.not_eq_true']
  cases s.arbitrating n <;> rfl

theorem lowerRule_underWay (ha : s.arbitrating n = true) : lowerRule s = none := by
  rw [lowerRule, lowerWaits_eq ho hl hs hz hr, if_pos ha]

theorem lowerRule_noLift (ha : s.arbitrating n = false) (hw : s.working .lift = none) :
    lowerRule s = some (s.setLay n (some { l with state := .waiting }), []) := by
  rw [lowerRule, lowerWaits_eq ho hl hs hz hr, ha]
  simp only [Bool.false_eq_true, if_false, hw, updateLay_some hl]

theorem lowerRule_lift {k : Nat} (ha : s.arbitrating n = false) (hw : s.working .lift = some k) :
    lowerRule s = if s.cell.state.takesLower = true then some (s, [.post k ⟨.lower, [.arbiter n]⟩]) else none := by
  rw [lowerRule, lowerWaits_eq ho hl hs hz hr, ha]
  simp only [Bool.false_eq_true, if_false, hw]

end

/-! ### ABANDON as a whole -/

/-- Settles O51: the cases of the request, the takings at a phase boundary and at a move's end, and the posting of LOWER. -/
theorem abandonIsTakenOrWanted : Obligations.AbandonIsTakenOrWanted := by
  refine ⟨?request, ?taken, ?lower⟩
  case request =>
    intro s tag lay h u n r
    refine ⟨fun hn => layControl_arrives h tag lay 2 (layControl_badArg 2 _ hn),
      fun hn hl => layControl_arrives h tag lay 2 (layControl_notFound 2 hn ((taking_lay? s n).trans hl)), fun l hn hl => ?_⟩
    intro barred lowering atRest release drains
    have hl' : u.lay? n = some l := (taking_lay? s n).trans hl
    have hlow : u.lowering n l = true ↔ lowering := by rw [taking_lowering]; exact lowering_iff s n l
    have hrel : u.drainReleases ↔ release := by rw [State.drainReleases, taking_seq]
    have answer {a : Answer} (ha : doAbandon n l u = a) := layControl_arrives h tag lay 2 ((layControl_abandon hn hl').trans ha)
    have taken {e : Effect} (hb : ¬barred) (hm : l.eff ≠ .moving) (hr : atRest) (he : takeAbandon n u = e) :=
      answer ((doAbandon_taken hb hm hr).trans (congrArg accept he))
    exact ⟨fun hb => answer (doAbandon_barred hb),
      fun hb hw => answer (doAbandon_lowering hb (hlow.mpr hw)),
      fun hb hw hm => answer (doAbandon_wanted hb hl' ((not_congr hlow).mpr hw) hm),
      fun hb hm hr hz => taken hb hm hr (takeAbandon_noZone hl' hz),
      fun hb hm hr hz => taken hb hm hr (takeAbandon_lift hl' hz),
      fun z hb hm hr hz h1 h2 => taken hb hm hr (takeAbandon_offTable hl' hz h1 h2),
      fun hb hm hr hz => ⟨fun hc => taken hb hm hr (takeAbandon_releasing hl' hz (hrel.mpr hc)),
        fun hc => taken hb hm hr (takeAbandon_pushing hl' hz ((not_congr hrel).mpr hc))⟩⟩
  case taken =>
    intro s boundary wants becomes
    refine ⟨boundaryRule_none, fun n l hn hw hm hl ha => boundaryRule_holds hn hw hm hl ha, fun n l hl => ?_⟩
    intro release drains ended
    exact ⟨moveEnded_stands hl, takeAbandon n s, fun hn hw hm ha => boundaryRule_abandons hn hw hm hl ha, moveEnded_abandons hl,
      takeAbandon_noZone hl, takeAbandon_lift hl,
      fun hz => hz.elim (fun hz => takeAbandon_offTable hl hz (by simp) (by simp))
        fun hz => takeAbandon_offTable hl hz (by simp) (by simp),
      takeAbandon_releasing hl, takeAbandon_pushing hl⟩
  case lower =>
    intro s n l ho hl hs hz hr lowers
    refine ⟨lowerRule_underWay ho hl hs hz hr, lowerRule_noLift ho hl hs hz hr, fun k ha hw => ?_⟩
    rw [lowerRule_lift ho hl hs hz hr ha hw]
    exact ⟨fun hc => if_pos ((takesLower_iff _).mpr hc), fun hc => if_neg ((not_congr (takesLower_iff _)).mpr hc)⟩

end Sys2Proof.Machine
end

section
/-! The Program Store and the Step Evaluator (spec file 02): one equation for each case of a request to the store and of a step's
evaluation, then the statements put together from them. -/

namespace Sys2Proof.Machine

/-! ### Lists that pass the static checks (R27, R29) -/

/-- In a list that ends once, END is the last step's kind and no other step's. -/
theorem isEnd_iff_last {steps : List Step} (h : endsOnce steps = true) {i : Nat} {st : Step} (hi : steps[i]? = some st) :
    st.isEnd = true ↔ i + 1 = steps.length := by
  induction steps generalizing i with
  | nil => simp at hi
  | cons first rest ih =>
    cases rest with
    | nil =>
      obtain ⟨rfl, rfl⟩ : i = 0 ∧ first = st := by cases i <;> simp_all
      simpa [endsOnce] using h
    | cons second rest =>
      obtain ⟨hfirst, hrest⟩ : first.isEnd = false ∧ endsOnce (second :: rest) = true := by simpa [endsOnce] using h
      cases i with
      | zero =>
        obtain rfl : first = st := by simpa using hi
        simp [hfirst]
      | succ i => simpa using ih hrest (by simpa using hi)

theorem length_of_mapM_stepOfRaw {raw : List RawStep} {steps : List Step} (h : raw.mapM stepOfRaw = some steps) :
    steps.length = raw.length := by
  induction raw generalizing steps with
  | nil => cases h; rfl
  | cons r raw ih =>
    obtain ⟨st, -, rest, hrest, rfl⟩ : ∃ st, stepOfRaw r = some st ∧ ∃ rest, raw.mapM stepOfRaw = some rest ∧ st :: rest = steps := by
      simpa [List.mapM_cons, Option.bind_eq_some_iff] using h
    simp [ih hrest]

/-- What R29's static checks say of the list that passes them. -/
theorem programOf_eq_some {raw : List RawStep} {steps : List Step} (h : programOf raw = some steps) :
    (1 ≤ raw.length ∧ raw.length ≤ 40) ∧ raw.mapM stepOfRaw = some steps ∧ endsOnce steps = true := by
  unfold programOf at h
  split at h
  case isTrue hlen =>
    obtain ⟨hm, he⟩ := Option.filter_eq_some_iff.mp h
    exact ⟨by simpa [within] using hlen, hm, he⟩
  case isFalse => cases h

/-! ### Protected slots (R30) -/

theorem protectedProgram_iff (s : State) (p : Nat) :
    s.protectedProgram p = true ↔ (s.program p).isSome = true ∧ ∃ n l, s.lay? n = some l ∧ l.program = some p := by
  have hlive : (s.lays.any fun l => l.any fun l => decide (l.program = some p)) = true ↔
      ∃ n l, s.lay? n = some l ∧ l.program = some p := by
    simp only [List.any_eq_true, Option.any_eq_true, decide_eq_true_eq, List.mem_iff_getElem?, State.lay?]
    constructor
    · rintro ⟨o, ⟨n, hn⟩, l, rfl, hp⟩
      exact ⟨n, l, by rw [hn]; rfl, hp⟩
    · rintro ⟨n, l, hl, hp⟩
      exact ⟨some l, ⟨n, (Option.getD_eq_iff.mp hl).resolve_right (by simp)⟩, l, rfl, hp⟩
  rw [State.protectedProgram, Bool.and_eq_true, hlive]

@[simp] theorem taking_protectedProgram (s : State) (p : Nat) : s.taking.protectedProgram p = s.protectedProgram p := by
  unfold State.protectedProgram; rw [taking_program, taking_lays]

/-- A slot whose content is taken out holds no steps; a number that names no slot holds none either. -/
theorem program_of_emptied {s t : State} {p : Nat} (h : t.programs = s.programs.set p none) : t.program p = none := by
  rw [State.program, h, List.getElem?_set_self']
  cases s.programs[p]? <;> rfl

/-! ### LOAD_PROGRAM and ERASE_PROGRAM (R29 to R32) -/

theorem doLoadProgram_badArg {program : Byte} {raw : List RawStep} (s : State) (h : 64 ≤ program.toNat ∨ programOf raw = none) :
    doLoadProgram program raw s = refuse .badArg s := by
  unfold doLoadProgram
  rcases h with h | h
  · exact if_pos h
  · simp only [h, ite_self]

theorem doEraseProgram_badArg {program : Byte} (s : State) (h : 64 ≤ program.toNat) :
    doEraseProgram program s = refuse .badArg s := if_pos h

section
variable {s : State} {program : Byte} (hp : program.toNat < 64)
include hp

theorem doLoadProgram_inUse {raw : List RawStep} {steps : List Step} (hs : programOf raw = some steps)
    (h : s.protectedProgram program.toNat = true) : doLoadProgram program raw s = refuse .inUse s := by
  simp only [doLoadProgram, if_neg (Nat.not_le.mpr hp), hs, h, if_true]

theorem doLoadProgram_loads {raw : List RawStep} {steps : List Step} (hs : programOf raw = some steps)
    (h : ¬s.protectedProgram program.toNat = true) :
    doLoadProgram program raw s = accept (s.setProgram program.toNat (some steps), []) := by
  simp only [doLoadProgram, if_neg (Nat.not_le.mpr hp), hs, if_neg h]

theorem doEraseProgram_inUse (h : s.protectedProgram program.toNat = true) : doEraseProgram program s = refuse .inUse s := by
  simp only [doEraseProgram, if_neg (Nat.not_le.mpr hp), h, if_true]

theorem doEraseProgram_empties (h : ¬s.protectedProgram program.toNat = true) :
    doEraseProgram program s = accept (s.setProgram program.toNat none, []) := by
  simp only [doEraseProgram, if_neg (Nat.not_le.mpr hp), if_neg h]

end

theorem parseRequest_encode_loadProgram (program : Byte) {raw : List RawStep} (h : raw.length ≤ 47) :
    parseRequest (encodeRequest (.loadProgram program raw)) = some (.loadProgram program raw) := by
  change parseRequest (5 :: program :: byteOf raw.length :: raw.flatMap encodeRawStep) = _
  rw [parseRequest_loadProgram, toNat_byteOf (by omega), parseRawSteps_steps]
  rfl

/-- A LOAD_PROGRAM request is answered as `doLoadProgram` answers it. -/
theorem loadProgram_arrives {s : State} (h : s.awaitsRequest) (tag program : Byte) {raw : List RawStep} (hlen : raw.length ≤ 47)
    {a : Answer} (ha : doLoadProgram program raw s.taking = a) :
    exec (.loadProgram tag program raw) s = .next (a.state.answered tag (.loadProgram program raw) a.result a.body) := by
  subst ha
  exact request_arrives tag _ (encodeRequest_length _ (by simp) (by rintro _ _ ⟨⟩; exact hlen)) h
    (parseRequest_encode_loadProgram program hlen)

/-- An ERASE_PROGRAM request is answered as `doEraseProgram` answers it. -/
theorem eraseProgram_arrives {s : State} (h : s.awaitsRequest) (tag program : Byte) {a : Answer}
    (ha : doEraseProgram program s.taking = a) :
    exec (.eraseProgram tag program) s = .next (a.state.answered tag (.eraseProgram program) a.result a.body) := by
  subst ha
  exact request_arrives tag _ (by simp [encodeRequest, requestArgs]) h (parseRequest_eraseProgram program)

/-- An accepted write of one slot's content, its event done and answered, leaves that write in the store. -/
theorem programs_of_written (s : State) (p : Nat) (steps : Option (List Step)) (tag : Byte) (r : Request) (result : Result) :
    ((State.worked (s.taking.setProgram p steps) []).answered tag r result []).programs = s.programs.set p steps := by
  simp [State.answered, State.worked]

/-- Settles O40: the cases of `doLoadProgram`, and what R29's checks say of the list. -/
theorem loadProgramReplacesSlot : Obligations.LoadProgramReplacesSlot := by
  intro s tag program raw h hlen u p r bound
  have answer {a : Answer} (ha : doLoadProgram program raw u = a) := loadProgram_arrives h tag program hlen ha
  have hbound : u.protectedProgram p = true ↔ bound := by rw [taking_protectedProgram, protectedProgram_iff]
  refine ⟨fun hbad => answer (doLoadProgram_badArg u hbad),
    fun steps hp hs hb => answer (doLoadProgram_inUse hp hs (hbound.mpr hb)),
    fun steps hp hs hb => ⟨_, answer (doLoadProgram_loads hp hs ((not_congr hbound).mpr hb)), programs_of_written s p _ tag r _, ?_⟩,
    fun steps hs => ?_⟩
  · rw [← taking_programs s]; rfl
  · obtain ⟨⟨hmin, hmax⟩, hm, he⟩ := programOf_eq_some hs
    have hsteps := length_of_mapM_stepOfRaw hm
    exact ⟨hsteps ▸ hmin, hsteps ▸ hmax, hsteps, fun i st hi => isEnd_iff_last he hi⟩

/-- Settles O41: the cases of `doEraseProgram`. -/
theorem eraseProgramEmptiesSlot : Obligations.EraseProgramEmptiesSlot := by
  intro s tag program h u p r bound
  have answer {a : Answer} (ha : doEraseProgram program u = a) := eraseProgram_arrives h tag program ha
  have hbound : u.protectedProgram p = true ↔ bound := by rw [taking_protectedProgram, protectedProgram_iff]
  refine ⟨fun hp => answer (doEraseProgram_badArg u hp), fun hp hb => answer (doEraseProgram_inUse hp (hbound.mpr hb)),
    fun hp hb => ?_⟩
  have hw := programs_of_written s p none tag r .ok
  refine ⟨_, answer (doEraseProgram_empties hp ((not_congr hbound).mpr hb)), hw, program_of_emptied hw, ?_⟩
  rw [← taking_programs s]; rfl

/-! ### The checks of a step (R38, R41 to R43, R46) -/

theorem gaugeOk_iff (p : CellParams) (g : Nat) : gaugeOk p g = true ↔ 1 ≤ g ∧ p.gaugeMin ≤ g ∧ g ≤ p.gaugeMax := by
  simp [gaugeOk, and_assoc]

theorem turnOk_iff (p : CellParams) (x y q : Nat) : turnOk p x y q = true ↔ q = 2 ∨ x ≤ p.tableWidth ∧ y ≤ p.gaugeMax := by
  simp [turnOk]

theorem checkWidth_shortCut {p : CellParams} {x w : Nat} (h : x ≤ w) : checkWidth p x w = .shortCut := if_pos h

theorem checkWidth_inside {p : CellParams} {x w : Nat} (h : w < x) :
    checkWidth p x w = if gaugeOk p (x - w) then .cut (x - w) else .gaugeLimit := if_neg (Nat.not_le.mpr h)

theorem checkPosition_nullCut {p : CellParams} {x g : Nat} (h : x ≤ g) : checkPosition p x g = .nullCut := if_pos h

theorem checkPosition_inside {p : CellParams} {x g : Nat} (h : g < x) :
    checkPosition p x g = if gaugeOk p g then .cut g else .gaugeLimit := if_neg (Nat.not_le.mpr h)

/-- The quotient and the remainder of R38 are those of the division. -/
theorem div_mod_of_fit {x pitch q r : Nat} (hx : x = q * pitch + r) (hr : r < pitch) : x / pitch = q ∧ x % pitch = r :=
  (Nat.div_mod_unique (Nat.zero_lt_of_lt hr)).mpr ⟨by rw [hx, Nat.mul_comm, Nat.add_comm], hr⟩

/-- The count of a FIT by the quotient and the remainder of its division (R38). -/
theorem fitCount_eq {x pitch q r : Nat} (hx : x = q * pitch + r) (hr : r < pitch) :
    fitCount x pitch = if q = 0 then 0 else if r = 0 then q - 1 else q := by
  obtain ⟨hq, hm⟩ := div_mod_of_fit hx hr
  rw [fitCount, hq, hm]

theorem min_256_eq (n : Nat) : min 256 n = if 256 < n then 256 else n := by
  split <;> omega

/-- The record of a lay a FIT has been evaluated for (R38). -/
theorem fit_eq {l : Lay} {x pitch q r : Nat} (hl : l.x = some x) (hx : x = q * pitch + r) (hr : r < pitch) :
    l.fit pitch = { l with
      runs := some (if 256 < fitCount x pitch then 256 else fitCount x pitch), zero := decide (q ≠ 0 ∧ r = 0)
      short := decide (q = 0), fitq := some q, fitr := some r } := by
  obtain ⟨hq, hm⟩ := div_mod_of_fit hx hr
  simp [Lay.fit, hl, hq, hm, min_256_eq]

theorem advance_eq {l : Lay} {i : Nat} (h : l.step = some i) : l.advance = { l with step := some (i + 1) } := by
  rw [Lay.advance, h]; rfl

/-! ### What the runs field decides (R35) -/

section
variable {s : State} {n : Nat} {l : Lay} {st : Step}

theorem evalStep_absent (h : l.runs = none) : evalStep n l st s = execStep n l st s := by rw [evalStep, h]

/-- A repeatable step is executed with runs absent and with runs above 0 alike. -/
theorem evalStep_repeats (h : l.runs ≠ some 0) (hst : st.repeatable = true) : evalStep n l st s = execStep n l st s := by
  match hr : l.runs with
  | none => exact evalStep_absent hr
  | some 0 => exact absurd hr h
  | some (v + 1) => rw [evalStep, hr]; exact if_pos hst

variable (hl : s.lay? n = some l)
include hl

/-- With runs 0 a step other than END is passed over. -/
theorem evalStep_skips {i : Nat} (hi : l.step = some i) (h : l.runs = some 0) (hst : st.isEnd = false) :
    evalStep n l st s = (s.setLay n (some { l with step := some (i + 1), runs := none }), []) := by
  rw [evalStep, h]
  simp only [hst, Bool.false_eq_true, if_false, updateLay_some hl, advance_eq hi]

/-- A count that meets END or a step that is not repeatable is discarded. -/
theorem evalStep_discards {v : Nat} (h : l.runs = some v) (h0 : v = 0 → st.isEnd = true) (hv : v ≠ 0 → st.repeatable = false) :
    evalStep n l st s = (s.setLay n (some { l with runs := none }), [.raise .repeatIgnored (.lay n) v, .execUnheld n]) := by
  rw [evalStep, h]
  cases v with
  | zero => simp only [h0 rfl, if_true, updateLay_some hl]
  | succ v => simp only [hv (Nat.succ_ne_zero v), Bool.false_eq_true, if_false, updateLay_some hl]

end

/-! ### A step executed once (R37 to R48) -/

section
variable {s : State} {n i : Nat} {l : Lay} (hl : s.lay? n = some l)
include hl

theorem beginPhase_eq (p : Phase) (target : Option Nat) :
    s.updateLay n (Lay.beginPhase p target) = s.setLay n (some { l with phase := some p, target := target }) := updateLay_some hl _

theorem execCut_cut {st : Step} {x g : Nat} (h : checkCut s.cell.params x st = .cut g) :
    execCut n st x s = (s.setLay n (some { l with phase := some .positioning, target := some g }), []) := by
  simp only [execCut, h, beginPhase_eq hl]

section
variable (hi : l.step = some i)
include hi

theorem stepDetail_eq : s.stepDetail n = i := by rw [State.stepDetail, hl, Option.bind_some, hi]; rfl

theorem advanceLay_eq : s.updateLay n Lay.advance = s.setLay n (some { l with step := some (i + 1) }) := by
  rw [updateLay_some hl, advance_eq hi]

theorem checkFails_eq (kind : EventKind) : checkFails n kind s =
    (s.setLay n (some l.toStepStart), [.raise kind (.lay n) i, .giveUp n]) := by
  rw [checkFails, stepDetail_eq hl hi, updateLay_some hl]

theorem execCut_shortCut {st : Step} {x : Nat} (h : checkCut s.cell.params x st = .shortCut) : execCut n st x s =
    (s.setLay n (some l.toStepStart), [.raise .shortCut (.lay n) i, .giveUp n]) := by
  simp only [execCut, h, checkFails_eq hl hi]

theorem execCut_gaugeLimit {st : Step} {x : Nat} (h : checkCut s.cell.params x st = .gaugeLimit) : execCut n st x s =
    (s.setLay n (some l.toStepStart), [.raise .gaugeLimit (.lay n) i, .giveUp n]) := by
  simp only [execCut, h, checkFails_eq hl hi]

theorem execCut_nullCut {st : Step} {x : Nat} (h : checkCut s.cell.params x st = .nullCut) :
    execCut n st x s = (s.setLay n (some { l with step := some (i + 1) }), [.raise .nullCut (.lay n) i]) := by
  simp only [execCut, h, stepDetail_eq hl hi, advanceLay_eq hl hi]

end

end

/-- TRIM and STRIP are checked alike, and both are repeatable (R28, R41). -/
theorem checkCut_width {st : Step} {w : Nat} (h : st = .trim w ∨ st = .strip w) (p : CellParams) (x : Nat) :
    checkCut p x st = checkWidth p x w := by
  rcases h with rfl | rfl <;> rfl

theorem evalStep_width {s : State} {n x w : Nat} {l : Lay} {st : Step} (hx : l.x = some x) (hr : l.runs ≠ some 0)
    (h : st = .trim w ∨ st = .strip w) : evalStep n l st s = execCut n st x s := by
  rw [evalStep_repeats hr (by rcases h with rfl | rfl <;> rfl)]
  rcases h with rfl | rfl <;> simp only [execStep, hx, Option.getD_some]

theorem evalStep_cutAt {s : State} {n x : Nat} {l : Lay} (hx : l.x = some x) (hr : l.runs = none) (g : Nat) (c : PieceClass) :
    evalStep n l (.cutAt g c) s = execCut n (.cutAt g c) x s := by
  rw [evalStep_absent hr]
  simp only [execStep, hx, Option.getD_some]

theorem execStep_turn {s : State} {n x y : Nat} {l : Lay} (hx : l.x = some x) (hy : l.y = some y) (q : Nat) :
    execStep n l (.turn q) s = if turnOk s.cell.params x y q then (s.updateLay n (Lay.beginPhase .turning none), [])
      else checkFails n .sizeLimit s := by
  simp only [execStep, hx, hy, Option.getD_some]

theorem execStep_fit {s : State} {n i x pitch q r : Nat} {l : Lay} (hl : s.lay? n = some l) (hi : l.step = some i)
    (hlx : l.x = some x) (hx : x = q * pitch + r) (hr : r < pitch) :
    execStep n l (.fit pitch) s = (s.setLay n (some { l with
      step := some (i + 1), runs := some (if 256 < fitCount x pitch then 256 else fitCount x pitch), zero := decide (q ≠ 0 ∧ r = 0)
      short := decide (q = 0), fitq := some q, fitr := some r }),
      if 256 < fitCount x pitch then [.raise .fitCapped (.lay n) i] else []) := by
  have hstep : (l.fit pitch).step = some i := hi
  rw [execStep, updateLay_some hl, advance_eq hstep, fit_eq hlx hx hr, hlx, hi]
  rfl

/-! ### After a check's event, after REPEAT_IGNORED and after BAD_STEP (R34, R35, R44) -/

section
variable {s : State} {n : Nat} {l : Lay} (hl : s.lay? n = some l)
include hl

theorem unheld_iff : s.unheld n = true ↔ l.state ≠ .held := by simp [State.unheld, hl]

theorem giveUp_unheld {i : Nat} (hi : l.step = some i) (h : l.state ≠ .held) : giveUp n s =
    (s.setLay n (some { l with phase := none, target := none, step := some (i + 1), runs := none }), []) := by
  have hstep : l.toStepStart.step = some i := hi
  rw [giveUp, if_pos ((unheld_iff hl).mpr h), updateLay_some hl, advance_eq hstep]
  rfl

theorem giveUp_held (h : l.state = .held) : giveUp n s = (s, []) :=
  if_neg fun hu => (unheld_iff hl).mp hu h

theorem drainUnheld_unheld (h : l.state ≠ .held) : drainUnheld n s = (drain n s, []) := if_pos ((unheld_iff hl).mpr h)

theorem drainUnheld_held (h : l.state = .held) : drainUnheld n s = (s, []) :=
  if_neg fun hu => (unheld_iff hl).mp hu h

theorem execUnheld_atStepStart {st : Step} (hst : s.stepOf l = some st) (hc : l.state = .cutting) (hp : l.phase = none) :
    execUnheld n s = execStep n l st s := by
  simp only [execUnheld, hl, hc, hp, and_self, if_true, hst]

theorem execUnheld_elsewhere (h : l.state ≠ .cutting ∨ l.phase ≠ none) : execUnheld n s = (s, []) := by
  have hn : ¬(l.state = .cutting ∧ l.phase = none) := fun ⟨hc, hp⟩ => h.elim (· hc) (· hp)
  simp only [execUnheld, hl, if_neg hn]

/-! ### The lay on the TABLE at its step start (R34) -/

variable (ho : s.zones.table.occupant = some n)
include ho

theorem stepRule_elsewhere (h : l.state ≠ .cutting ∨ l.phase ≠ none ∨ s.cell.state ≠ .running) : stepRule s = none := by
  have hn : ¬(l.state = .cutting ∧ l.phase = none ∧ s.cell.state = .running) :=
    fun ⟨hc, hp, hr⟩ => h.elim (· hc) (·.elim (· hp) (· hr))
  simp only [stepRule, ho, hl, if_neg hn]

section
variable (hc : l.state = .cutting) (hp : l.phase = none) (hr : s.cell.state = .running)
include hc hp hr

theorem stepRule_evaluates {st : Step} (hst : s.stepOf l = some st) : stepRule s = some (evalStep n l st s) := by
  simp only [stepRule, ho, hl, hc, hp, hr, and_self, if_true, hst]

theorem stepRule_badStep {q : Nat} (hq : l.program = some q) (he : s.program q = none) :
    stepRule s = some (s, [.raise .badStep (.lay n) q, .drainUnheld n]) := by
  have hst : s.stepOf l = none := by rw [State.stepOf, hq, Option.bind_some, he]; rfl
  simp only [stepRule, ho, hl, hc, hp, hr, and_self, if_true, hst, hq, Option.getD_some]

end

end

/-! ### The statement -/

/-- Settles O55: the step executed with runs absent and TRIM and STRIP with runs above 0, the count that passes a step over or is
discarded, and what surrounds an evaluation. -/
theorem stepEvaluation : Obligations.StepEvaluation := by
  refine ⟨?executed, ?counted, ?around⟩
  case executed =>
    intro s n i x y l hl hi hx hy p passes cuts turns fails
    have hpasses (g : Nat) : gaugeOk p g = true ↔ passes g := gaugeOk_iff p g
    refine ⟨fun hr => ?once, fun hr w st hst => ?width⟩
    case once =>
      have once (st : Step) : evalStep n l st s = execStep n l st s := evalStep_absent hr
      refine ⟨?rep, ?press, ?note, ?pause, ?invert, ?turn, ?ends, ?fit, ?cutAt⟩
      case rep => intro c; rw [once, execStep, updateLay_some hl, advance_eq hi]
      case press => intro level; rw [once, execStep, updateLay_some hl, advance_eq hi]
      case note => intro k; rw [once, execStep, advanceLay_eq hl hi]
      case pause => rw [once, execStep, hi]; rfl
      case invert => rw [once, execStep, beginPhase_eq hl]
      case turn =>
        intro q _
        rw [once, execStep_turn hx hy]
        refine ⟨fun h => ?_, fun h2 hbig => ?_⟩
        · exact (if_pos ((turnOk_iff p x y q).mpr h)).trans (congrArg (·, []) (beginPhase_eq hl _ _))
        · exact (if_neg (mt (turnOk_iff p x y q).mp (by omega))).trans (checkFails_eq hl hi .sizeLimit)
      case ends => intro c; rw [once, execStep, beginPhase_eq hl]
      case fit =>
        intro pitch q r hdiv hlt count
        have hcount : fitCount x pitch = count := fitCount_eq hdiv hlt
        rw [once, execStep_fit hl hi hx hdiv hlt, hcount]
      case cutAt =>
        intro g c
        rw [evalStep_cutAt hx hr]
        refine ⟨fun h => execCut_nullCut hl hi (checkPosition_nullCut h), fun h hg => execCut_gaugeLimit hl hi ?_,
          fun h hg => execCut_cut hl ?_⟩
        · exact (checkPosition_inside h).trans (if_neg (mt (hpasses g).mp hg))
        · exact (checkPosition_inside h).trans (if_pos ((hpasses g).mpr hg))
    case width =>
      rw [evalStep_width hx hr hst]
      have check := checkCut_width hst p x
      refine ⟨fun h => execCut_shortCut hl hi (check.trans (checkWidth_shortCut h)), fun h hg => execCut_gaugeLimit hl hi ?_,
        fun h hg => execCut_cut hl ?_⟩
      · exact check.trans ((checkWidth_inside h).trans (if_neg (mt (hpasses _).mp hg)))
      · exact check.trans ((checkWidth_inside h).trans (if_pos ((hpasses _).mpr hg)))
  case counted =>
    intro s n i l st hl hi
    exact ⟨evalStep_skips hl hi, fun v => evalStep_discards hl,
      fun hst hr hc hp => (execUnheld_atStepStart hl hst hc hp).trans (evalStep_absent hr).symm, execUnheld_elsewhere hl⟩
  case around =>
    intro s n i l hl hi
    refine ⟨giveUp_unheld hl hi, giveUp_held hl, fun ho => ⟨fun st hc hp hr hst => stepRule_evaluates hl ho hc hp hr hst,
      fun q hc hp hr hq he => stepRule_badStep hl ho hc hp hr hq he, stepRule_elsewhere hl ho⟩, drainUnheld_held hl,
      fun hh hz => ⟨fun hrel => ?releasing, fun hrel => ?pushing⟩⟩
    case releasing => exact (drainUnheld_unheld hl hh).trans (congrArg (·, []) (drain_releasing hl hz hrel))
    case pushing => exact (drainUnheld_unheld hl hh).trans (congrArg (·, []) (drain_pushing hl hz hrel))

end Sys2Proof.Machine
end

section
/-! The step on an empty command queue (log 1): what is due, one equation for each timer with those before it not run down, then the
statement put together from them. -/

namespace Sys2Proof.Machine

/-! ### What is due on an empty command queue (log 1) -/

theorem slot_of_getElem {s : State} {k : Nat} (h : k < s.slots.length) : s.slots[k] = s.slot k := by
  simp [State.slot, List.getElem?_eq_getElem h]

theorem due_iff (x : Slot) : x.due = true ↔ ∃ i, x.inFlight = some i ∧ i.left = 0 := by
  simp [Slot.due, Option.any_eq_true]

/-- The fill timer does not stand run down. -/
def State.fillNotDue (s : State) : Prop := ∀ f, s.intake.fill = some f → f.left ≠ 0

/-- No slot below the number has an order timer that has run down. -/
def State.ordersNotDue (s : State) (m : Nat) : Prop := ∀ j < m, ∀ i, (s.slot j).inFlight = some i → i.left ≠ 0

/-- The stroke timer does not stand run down. -/
def State.strokeNotDue (s : State) : Prop := ∀ t, s.gate.timer = some t → t.elapsed < t.limit

theorem fillNotDue_iff (s : State) : s.fillNotDue ↔ ¬(s.intake.fill.any fun f => decide (f.left = 0)) = true := by
  simp [State.fillNotDue, Option.any_eq_true]

theorem strokeNotDue_iff (s : State) : s.strokeNotDue ↔ ¬(s.gate.timer.any fun t => decide (t.limit ≤ t.elapsed)) = true := by
  simp [State.strokeNotDue, Option.any_eq_true]

theorem not_due_of_ordersNotDue {s : State} {m j : Nat} (h : s.ordersNotDue m) (hj : j < m) : ¬(s.slot j).due = true := by
  rw [due_iff]
  rintro ⟨i, hi, h0⟩
  exact h j hj i hi h0

theorem findDue_some {s : State} {k : Nat} {i : InFlight} (hk : k < s.slots.length) (hb : s.ordersNotDue k)
    (hi : (s.slot k).inFlight = some i) (h0 : i.left = 0) : s.slots.findIdx? Slot.due = some k := by
  refine List.findIdx?_eq_some_iff_getElem.mpr ⟨hk, ?_, fun j hj => ?_⟩
  · rw [slot_of_getElem hk, due_iff]
    exact ⟨i, hi, h0⟩
  · rw [slot_of_getElem (Nat.lt_trans hj hk)]
    exact not_due_of_ordersNotDue hb hj

theorem findDue_none {s : State} (h : s.ordersNotDue s.slots.length) : s.slots.findIdx? Slot.due = none := by
  refine List.findIdx?_eq_none_iff.mpr fun x hx => ?_
  obtain ⟨j, hj, rfl⟩ := List.getElem_of_mem hx
  rw [slot_of_getElem hj]
  exact Bool.eq_false_iff.mpr (not_due_of_ordersNotDue h hj)

theorem dueEvent_fill {s : State} {f : FillRequest} (hf : s.intake.fill = some f) (h0 : f.left = 0) :
    dueEvent s = some fillExpiry := by
  simp [dueEvent, hf, h0]

theorem dueEvent_order {s : State} {k : Nat} {i : InFlight} (hf : s.fillNotDue) (hk : k < s.slots.length) (hb : s.ordersNotDue k)
    (hi : (s.slot k).inFlight = some i) (h0 : i.left = 0) :
    dueEvent s = some (if i.order.kind = .ident then identExpiry k else orderExpiry k) := by
  unfold dueEvent
  rw [if_neg ((fillNotDue_iff s).mp hf), findDue_some hk hb hi h0]
  dsimp only
  rw [hi]
  by_cases h : i.order.kind = .ident <;> simp [h]

section
variable {s : State} (hf : s.fillNotDue) (ho : s.ordersNotDue s.slots.length)
include hf ho

/-- With neither the fill timer nor an order timer run down, the gate's timers come next, then Cell Control's, then the admission. -/
theorem dueEvent_afterOrders : dueEvent s =
    if s.gate.window = some 0 then some windowExpiry
    else if s.gate.timer.any fun t => decide (t.limit ≤ t.elapsed) then some strokeExpiry
    else if s.cell.idle = some 0 then some idleExpiry
    else if s.cell.settle = some 0 then some settleExpiry
    else if s.cell.lockWait = some 0 then some lockWaitExpiry
    else if s.intake.tickets ≠ [] ∧ s.freeRecord.isSome then some admitTicket
    else none := by
  unfold dueEvent
  rw [if_neg ((fillNotDue_iff s).mp hf), findDue_none ho]

theorem dueEvent_window (hw : s.gate.window = some 0) : dueEvent s = some windowExpiry := by
  rw [dueEvent_afterOrders hf ho, if_pos hw]

variable (hw : s.gate.window ≠ some 0)
include hw

theorem dueEvent_stroke {t : StrokeTimer} (ht : s.gate.timer = some t) (hl : t.limit ≤ t.elapsed) :
    dueEvent s = some strokeExpiry := by
  rw [dueEvent_afterOrders hf ho, if_neg hw, if_pos (by simpa [ht] using hl)]

variable (hs : s.strokeNotDue)
include hs

/-- With the gate's timers not run down either, Cell Control's come next. -/
theorem dueEvent_afterGate : dueEvent s =
    if s.cell.idle = some 0 then some idleExpiry
    else if s.cell.settle = some 0 then some settleExpiry
    else if s.cell.lockWait = some 0 then some lockWaitExpiry
    else if s.intake.tickets ≠ [] ∧ s.freeRecord.isSome then some admitTicket
    else none := by
  rw [dueEvent_afterOrders hf ho, if_neg hw, if_neg ((strokeNotDue_iff s).mp hs)]

theorem dueEvent_idle (hi : s.cell.idle = some 0) : dueEvent s = some idleExpiry := by
  rw [dueEvent_afterGate hf ho hw hs, if_pos hi]

variable (hi : s.cell.idle ≠ some 0)
include hi

theorem dueEvent_settle (he : s.cell.settle = some 0) : dueEvent s = some settleExpiry := by
  rw [dueEvent_afterGate hf ho hw hs, if_neg hi, if_pos he]

variable (he : s.cell.settle ≠ some 0)
include he

theorem dueEvent_lockWait (hl : s.cell.lockWait = some 0) : dueEvent s = some lockWaitExpiry := by
  rw [dueEvent_afterGate hf ho hw hs, if_neg hi, if_neg he, if_pos hl]

variable (hl : s.cell.lockWait ≠ some 0)
include hl

theorem dueEvent_admission (ht : s.intake.tickets ≠ []) (hr : s.freeRecord.isSome = true) : dueEvent s = some admitTicket := by
  rw [dueEvent_afterGate hf ho hw hs, if_neg hi, if_neg he, if_neg hl, if_pos ⟨ht, hr⟩]

theorem dueEvent_none (h : s.intake.tickets = [] ∨ s.freeRecord = none) : dueEvent s = none := by
  rw [dueEvent_afterGate hf ho hw hs, if_neg hi, if_neg he, if_neg hl, if_neg]
  rintro ⟨ht, hr⟩
  rcases h with h | h
  · exact ht h
  · simp [h] at hr

end

/-! ### The step on an empty command queue -/

section
variable {s : State} (hp : s.pending = [])
include hp

theorem step_of_empty : step s = .next (idleStep s) := by
  unfold step
  rw [hp]

theorem step_held (hr : s.resetHeld = true) : step s = .next s := by
  rw [step_of_empty hp, idleStep, unlessReset_held hr]

/-- What is due happens as in its own command, which looks at RESET_N itself. -/
theorem step_due {e : State → Effect} (hr : s.resetHeld = false) (he : dueEvent s = some e) :
    step s = .next (unlessReset (event e) s) := by
  rw [step_of_empty hp, idleStep, unlessReset_free hr, unlessReset_free hr, he]

theorem step_passes (hr : s.resetHeld = false) (he : dueEvent s = none) : step s = .next (passTime s) := by
  rw [step_of_empty hp, idleStep, unlessReset_free hr, he]

theorem step_orderDue {k : Nat} {i : InFlight} (hr : s.resetHeld = false) (hf : s.fillNotDue) (hk : k < s.slots.length)
    (hb : s.ordersNotDue k) (hi : (s.slot k).inFlight = some i) (h0 : i.left = 0) :
    step s = exec (if i.order.kind = .ident then .identTimerExpiry k else .orderTimerExpiry k) s := by
  rw [step_due hp hr (dueEvent_order hf hk hb hi h0)]
  split <;> rfl

end

/-- Settles O3: `dueEvent` timer by timer, each expiry the event of its own command. -/
theorem emptyQueueStep : Obligations.EmptyQueueStep := by
  intro s hp noFill noOrder noStroke
  refine ⟨fun hr => step_held hp hr, fun f hr hf h0 => step_due hp hr (dueEvent_fill hf h0),
    fun k i hr hf hk hb hi h0 => step_orderDue hp hr hf hk hb hi h0, fun hr hf ho => ?_⟩
  refine ⟨fun hw => step_due hp hr (dueEvent_window hf ho hw), fun t hw ht hl => step_due hp hr (dueEvent_stroke hf ho hw ht hl),
    fun hw hs => ?_⟩
  refine ⟨fun hi => step_due hp hr (dueEvent_idle hf ho hw hs hi), fun hi he => step_due hp hr (dueEvent_settle hf ho hw hs hi he),
    fun hi he hl => step_due hp hr (dueEvent_lockWait hf ho hw hs hi he hl), fun hi he hl => ?_⟩
  exact ⟨fun ht hr' => step_due hp hr (dueEvent_admission hf ho hw hs hi he hl ht hr'),
    fun h => step_passes hp hr (dueEvent_none hf ho hw hs hi he hl h)⟩

end Sys2Proof.Machine
end

section
/-! Tickets, the Fill Request, admission and binding, and the requests to the Job Map (spec file 03): one equation for each case of the
functions concerned, then the statements put together from them. -/

namespace Sys2Proof.Machine

/-! ### The lays that wait for a job (R62 to R65) -/

/-- The lay of the number is in AWAIT_JOB. -/
def State.awaits (s : State) (n : Nat) : Prop := ∃ l, s.lay? n = some l ∧ l.state = .awaitJob

theorem awaits_iff (s : State) (n : Nat) : ((s.lay? n).any fun l => decide (l.state = .awaitJob)) = true ↔ s.awaits n := by
  simp [Option.any_eq_true, State.awaits]

/-- AWAIT_JOB and the job tested in one: as the obligations write the waiting lays. -/
theorem awaitingJobOf_eq (s : State) (job : Nat) : s.awaitingJobOf job =
    s.order.filter fun n => (s.lay? n).any fun l => decide (l.state = .awaitJob) && decide (l.job = job) := by
  rw [State.awaitingJobOf, State.awaitingJob, List.filter_filter]
  congr 1
  funext n
  cases s.lay? n <;> simp [Bool.and_comm]

theorem mem_awaitingJobOf {s : State} {job n : Nat} :
    n ∈ s.awaitingJobOf job ↔ n ∈ s.order ∧ ∃ l, s.lay? n = some l ∧ l.state = .awaitJob ∧ l.job = job := by
  simp [awaitingJobOf_eq, Option.any_eq_true]

theorem awaitingJob_none {s : State} (h : ∀ m ∈ s.order, ¬s.awaits m) : s.awaitingJob = [] :=
  List.filter_eq_nil_iff.mpr fun m hm => (not_congr (awaits_iff s m)).mpr (h m hm)

/-- The oldest waiting lay heads the list. -/
theorem awaitingJob_oldest {s : State} {n : Nat} {older younger : List Nat} (ho : s.order = older ++ n :: younger)
    (hb : ∀ m ∈ older, ¬s.awaits m) (hn : s.awaits n) : ∃ rest, s.awaitingJob = n :: rest := by
  have hold : older.filter (fun m => (s.lay? m).any fun l => decide (l.state = .awaitJob)) = [] :=
    List.filter_eq_nil_iff.mpr fun m hm => (not_congr (awaits_iff s m)).mpr (hb m hm)
  rw [State.awaitingJob, ho, List.filter_append, hold, List.nil_append, List.filter_cons, if_pos ((awaits_iff s n).mpr hn)]
  exact ⟨_, rfl⟩

theorem taking_awaitingJobOf (s : State) (job : Nat) : s.taking.awaitingJobOf job = s.awaitingJobOf job := by
  simp only [awaitingJobOf_eq, taking_order, taking_lay?]

/-! ### The Fill Request (R63 to R66) -/

theorem fillRule_ends {s : State} {f : FillRequest} (hf : s.intake.fill = some f) (h : s.awaitingJobOf f.job = []) :
    fillRule s = some ({ s with intake := { s.intake with fill := none } }, []) := by
  simp only [fillRule, hf, h, if_true]

theorem fillRule_stands {s : State} {f : FillRequest} (hf : s.intake.fill = some f) (h : s.awaitingJobOf f.job ≠ []) :
    fillRule s = none := by
  simp only [fillRule, hf, h, if_false]

theorem fillRule_starts {s : State} {n : Nat} {rest : List Nat} {l : Lay} (hf : s.intake.fill = none)
    (h : s.awaitingJob = n :: rest) (hl : s.lay? n = some l) : fillRule s = some
      ({ s with intake := { s.intake with fill := some ⟨l.job, s.cell.params.fillTime⟩ } }, [.raise .jobMiss (.job l.job) n]) := by
  simp only [fillRule, hf, h, hl, Option.map_some, Option.getD_some]

theorem fillRule_absent {s : State} (hf : s.intake.fill = none) (h : s.awaitingJob = []) : fillRule s = none := by
  simp only [fillRule, hf, h]

theorem fillExpiry_running {s : State} {f : FillRequest} (hf : s.intake.fill = some f) :
    fillExpiry s = (s, (s.awaitingJobOf f.job).map (fun n => .raise .fillTimeout (.lay n) f.job) ++ [.fillEnds]) := by
  simp only [fillExpiry, hf]

theorem fillExpiry_absent {s : State} (hf : s.intake.fill = none) : fillExpiry s = (s, []) := by simp only [fillExpiry, hf]

/-- A command that is an event of its own leads, where the part is not reset, to what follows its own effect. -/
theorem event_after {prim : State → Effect} {s t : State} {work : List Task} (hr : s.resetHeld = false)
    (h : prim s = (t, work)) : unlessReset (event prim) s = t.after work := by
  rw [unlessReset_free hr, event, h, State.after]

theorem exec_fillTimerExpiry {s t : State} {work : List Task} (hr : s.resetHeld = false) (h : fillExpiry s = (t, work)) :
    exec .fillTimerExpiry s = .next (t.after work) := congrArg Host.Outcome.next (event_after hr h)

/-- Settles O8: `fillExpiry` and `fillRule`, with the request present and absent. -/
theorem fillTimerExpiryRaisesTimeouts : Obligations.FillTimerExpiryRaisesTimeouts := by
  refine ⟨fun s hr => ⟨fun f hf => ?_, fun hf => exec_fillTimerExpiry hr (fillExpiry_absent hf), rfl⟩, ?_⟩
  · rw [exec_fillTimerExpiry hr (fillExpiry_running hf), awaitingJobOf_eq]
  intro s awaits
  refine ⟨fun f hf h => ?ends, fun f n l hf hn hl ha hj => ?stands, fun n l older younger hf ho hb hl ha => ?starts,
    fun hf h => fillRule_absent hf (awaitingJob_none h)⟩
  case ends =>
    refine fillRule_ends hf (List.eq_nil_iff_forall_not_mem.mpr fun n hn => ?_)
    obtain ⟨ho, l, hl, ha, hj⟩ := mem_awaitingJobOf.mp hn
    exact h n ho l hl ha hj
  case stands => exact fillRule_stands hf (List.ne_nil_of_mem (mem_awaitingJobOf.mpr ⟨hn, l, hl, ha, hj⟩))
  case starts =>
    obtain ⟨rest, hrest⟩ := awaitingJob_oldest ho hb ⟨l, hl, ha⟩
    exact fillRule_starts hf hrest hl

/-! ### Admission (R3, R54, R57, R167) -/

theorem searchMap_hit {s : State} {n job : Nat} {e : JobEntry} (h : s.job? job = some e) :
    searchMap n job s = ({ s with intake := s.intake.toFront e }, [.bind n e]) := by
  simp only [searchMap, h]

theorem searchMap_miss {s : State} {n job : Nat} (h : s.job? job = none) : searchMap n job s = (s, []) := by
  simp only [searchMap, h]

/-- What Cell Control has to do for an admission: PARKED is left for WAKING. -/
def State.wakeWork (s : State) : List Task := if s.cell.state = .parked then [.enter .waking] else []

theorem admissionWake_eq (s : State) : admissionWake s =
    ({ s with cell := { s.cell with wakeWanted := s.cell.wakeWanted || decide (s.cell.state = .parking) } }, s.wakeWork) := by
  unfold admissionWake State.wakeWork
  split
  case h_1 hparking => simp [hparking]
  case h_2 hparked =>
    have hwanted : (s.cell.wakeWanted || decide (s.cell.state = .parking)) = s.cell.wakeWanted := by
      rw [decide_eq_false (by simp [hparked]), Bool.or_false]
    rw [hwanted, if_pos hparked]
  case h_3 _ hparking hparked =>
    have hwanted : (s.cell.wakeWanted || decide (s.cell.state = .parking)) = s.cell.wakeWanted := by
      rw [decide_eq_false hparking, Bool.or_false]
    rw [hwanted, if_neg hparked]

/-- The state an admission leaves: the record at its admission values, its number youngest, a wake wanted in PARKING. -/
def State.admitting (s : State) (n : Nat) (t : Ticket) (i : Intake) : State :=
  { s with
    intake := i
    lays := s.lays.set n (some (admitted t))
    order := s.order ++ [n]
    cell := { s.cell with wakeWanted := s.cell.wakeWanted || decide (s.cell.state = .parking) } }

section
variable {s : State} {t : Ticket} {rest : List Ticket} {n : Nat} (ht : s.intake.tickets = t :: rest) (hn : s.freeRecord = some n)
include ht hn

theorem admitTicket_hit {e : JobEntry} (h : s.job? t.job = some e) : admitTicket s =
    (s.admitting n t ({ s.intake with tickets := rest }.toFront e), .bind n e :: s.wakeWork) := by
  unfold admitTicket
  simp only [ht, hn]
  rw [searchMap_hit (by exact h), admissionWake_eq]
  rfl

theorem admitTicket_miss (h : s.job? t.job = none) : admitTicket s =
    (s.admitting n t { s.intake with tickets := rest }, s.wakeWork) := by
  unfold admitTicket
  simp only [ht, hn]
  rw [searchMap_miss (by exact h), admissionWake_eq]
  rfl

end

theorem admitTicket_none {s : State} (h : s.intake.tickets = [] ∨ s.freeRecord = none) : admitTicket s = (s, []) := by
  unfold admitTicket
  split
  case h_1 t rest n ht hn => simp [ht, hn] at h
  case h_2 => rfl

theorem exec_admission {s t : State} {work : List Task} (hr : s.resetHeld = false) (h : admitTicket s = (t, work)) :
    exec .admission s = .next (t.after work) := congrArg Host.Outcome.next (event_after hr h)

/-! ### Binding (R7, R9) -/

theorem sizeFailure_x {p : CellParams} {x : Nat} (y h : Nat) (hx : p.gaugeMax < x) : sizeFailure p x y h = some 1001 := if_pos hx

theorem sizeFailure_y {p : CellParams} {x y : Nat} (h : Nat) (hx : x ≤ p.gaugeMax) (hy : p.tableWidth < y) :
    sizeFailure p x y h = some 1002 := by
  rw [sizeFailure, if_neg (Nat.not_lt.mpr hx), if_pos hy]

theorem sizeFailure_height {p : CellParams} {x y h : Nat} (hx : x ≤ p.gaugeMax) (hy : y ≤ p.tableWidth) (hh : p.clampMaxH < h) :
    sizeFailure p x y h = some 1003 := by
  rw [sizeFailure, if_neg (Nat.not_lt.mpr hx), if_neg (Nat.not_lt.mpr hy), if_pos hh]

theorem sizeFailure_none {p : CellParams} {x y h : Nat} (hf : x ≤ p.gaugeMax ∧ y ≤ p.tableWidth ∧ h ≤ p.clampMaxH) :
    sizeFailure p x y h = none := by
  obtain ⟨hx, hy, hh⟩ := hf
  rw [sizeFailure, if_neg (Nat.not_lt.mpr hx), if_neg (Nat.not_lt.mpr hy), if_neg (Nat.not_lt.mpr hh)]

section
variable {s : State} {n : Nat} {l : Lay} (hl : s.lay? n = some l) (e : JobEntry)
include hl

theorem bindLay_elsewhere (h : l.state ≠ .awaitJob) : bindLay n e s = (s, []) := by
  simp only [bindLay, hl, if_pos h]

variable (ha : l.state = .awaitJob)
include ha

/-- The sizes a binding checks are those the lay has after the copy. -/
theorem bindLay_oversized {d : Nat}
    (hd : sizeFailure s.cell.params (l.x.getD e.defaultX) (l.y.getD e.defaultY) l.height = some d) :
    bindLay n e s = (s.setLay n (some (l.copyJob e)), [.raise .sizeLimit (.lay n) d]) := by
  have hf : s.sizeFailureOf (l.copyJob e) = some d := hd
  simp only [bindLay, hl, if_neg (not_not_intro ha), hf]

variable (hd : sizeFailure s.cell.params (l.x.getD e.defaultX) (l.y.getD e.defaultY) l.height = none)
include hd

theorem bindLay_fits : bindLay n e s = (s.setLay n (some (l.copyJob e)),
    if (s.program e.program).isNone then [.raise .badStep (.lay n) e.program] else []) := by
  have hf : s.sizeFailureOf (l.copyJob e) = none := hd
  simp only [bindLay, hl, if_neg (not_not_intro ha), hf]
  split <;> rfl

theorem bindLay_empty (hp : s.program e.program = none) :
    bindLay n e s = (s.setLay n (some (l.copyJob e)), [.raise .badStep (.lay n) e.program]) := by
  rw [bindLay_fits hl e ha hd, hp]; rfl

theorem bindLay_binds (hp : (s.program e.program).isSome = true) : bindLay n e s = (s.setLay n (some (l.copyJob e)), []) := by
  rw [bindLay_fits hl e ha hd, if_neg]
  simpa [Option.isSome_iff_ne_none] using hp

end

/-- Settles O12: `admitTicket` on a hit, on a miss and with nothing to admit, then the branches of `bindLay`. -/
theorem admissionTakesOldestTicket : Obligations.AdmissionTakesOldestTicket := by
  refine ⟨fun s hr => ⟨?_, fun h => exec_admission hr (admitTicket_none h)⟩, ?_⟩
  · intro t rest n ht hn enters wake
    exact ⟨fun e he => exec_admission hr (admitTicket_hit ht hn he), fun he => exec_admission hr (admitTicket_miss ht hn he)⟩
  intro s n e l hl x y p fits bound
  exact ⟨fun ha => bindLay_elsewhere hl e ha,
    fun ha hx => bindLay_oversized hl e ha (sizeFailure_x y l.height hx),
    fun ha hx hy => bindLay_oversized hl e ha (sizeFailure_y l.height hx hy),
    fun ha hx hy hh => bindLay_oversized hl e ha (sizeFailure_height hx hy hh),
    fun ha hf hp => bindLay_empty hl e ha (sizeFailure_none hf) hp,
    fun ha hf hp => bindLay_binds hl e ha (sizeFailure_none hf) hp⟩

/-! ### Tickets (R52 to R54) -/

section
variable {s : State} (t : Ticket)

theorem takeTicket_admitted (hq : s.intake.tickets = []) (hr : s.freeRecord.isSome = true) :
    takeTicket t s = admitTicket { s with intake := { s.intake with tickets := [t] } } := by
  rw [takeTicket, if_pos hq]
  exact if_pos hr

theorem takeTicket_first (hq : s.intake.tickets = []) (hr : s.freeRecord = none) :
    takeTicket t s = ({ s with intake := { s.intake with tickets := [t] } }, []) := by
  rw [takeTicket, if_pos hq]
  exact if_neg (by simp [hr])

theorem takeTicket_waits (hq : s.intake.tickets ≠ []) (hlt : s.intake.tickets.length < 4) :
    takeTicket t s = ({ s with intake := { s.intake with tickets := s.intake.tickets ++ [t] } }, []) := by
  rw [takeTicket, if_neg hq, if_pos hlt]

theorem takeTicket_lost (hge : 4 ≤ s.intake.tickets.length) :
    takeTicket t s = (s, [.raise .ticketLost (.job t.job) t.pile]) := by
  rw [takeTicket, if_neg (fun hq => by simp [hq] at hge), if_neg (Nat.not_lt.mpr hge)]

end

/-- A good TICKET frame is counted (R175, R184). -/
def State.ticketed (s : State) : State :=
  { s with link := { s.link with uStats := { s.link.uStats with
    good := bump32 s.link.uStats.good, tickets := bump32 s.link.uStats.tickets } } }

section
variable {s : State} (h : s.listens)
include h

theorem frameArrives_ticket (t : Ticket) : frameArrives .u (.ticket t) s = event (routeTicket t) s := by
  obtain ⟨hreset, hlock⟩ := h
  simp [frameArrives, unlessReset_free hreset, State.receives, hlock]

theorem frameArrives_rejected (check : Nat) (flag : Option RxFlag) :
    frameArrives .u (.rejected check flag) s = event (rejectFrame .u check flag) s := by
  obtain ⟨hreset, hlock⟩ := h
  simp [frameArrives, unlessReset_free hreset, State.receives, hlock]

/-- A ticket in range is counted and reaches Ticket Intake. -/
theorem exec_ticket {t : Ticket} (hr : ticketInRange t = true) :
    exec (.ticket t) s = .next (event (takeTicket t) s.ticketed) := by
  change execTicket t s = _
  rw [execTicket, if_pos hr, frameArrives_ticket h]
  rfl

/-- A ticket in range whose effect is known leads to what follows that effect. -/
theorem exec_ticket_after {v : State} {t : Ticket} {work : List Task} (hr : ticketInRange t = true)
    (he : takeTicket t s.ticketed = (v, work)) : exec (.ticket t) s = .next (v.after work) := by
  rw [exec_ticket h hr, event, he, State.after]

/-- A ticket out of range fails check 6, which sets no flag (R52, R173, log 30). -/
theorem exec_ticket_outOfRange {t : Ticket} (hr : ticketInRange t = false) :
    exec (.ticket t) s = .next (event (rejectFrame .u 6 none) s) := by
  change execTicket t s = _
  rw [execTicket, if_neg (Bool.eq_false_iff.mp hr), frameArrives_rejected h]

end

/-- Settles O28: the branches of `takeTicket` behind the frame's count, and check 6. -/
theorem ticketJoinsOrIsLost : Obligations.TicketJoinsOrIsLost := by
  intro s t h u
  refine ⟨fun hr hq hf => ?_, fun hr hq hf => exec_ticket_after h hr (takeTicket_first (s := u) t hq hf),
    fun hr hq hlt => exec_ticket_after h hr (takeTicket_waits (s := u) t hq hlt),
    fun hr hge => exec_ticket_after h hr (takeTicket_lost (s := u) t hge), fun hr => exec_ticket_outOfRange h hr⟩
  rw [exec_ticket_after h hr (takeTicket_admitted (s := u) t hq hf)]
  exact (exec_admission (s := { u with intake := { s.intake with tickets := [t] } }) h.1 rfl).symm

/-! ### Writing the Job Map (R58, R59) -/

theorem write_front {i : Intake} {e : JobEntry} (h : (∃ f ∈ i.jobs, f.job = e.job) ∨ i.jobs.length < 32) :
    i.write e = some (i.toFront e) := by
  rw [Intake.write, if_pos]
  simpa using h

/-- A job without an entry in a full map needs an eviction. -/
theorem write_full {i : Intake} {e : JobEntry} (hno : ∀ f ∈ i.jobs, f.job ≠ e.job) (hlen : 32 ≤ i.jobs.length) :
    i.write e = (evict i.jobs).map fun jobs => { i with jobs := e :: jobs } := by
  rw [Intake.write, if_neg]
  simpa [hlen] using hno

theorem evict_pinned {jobs : List JobEntry} (h : ∀ f ∈ jobs, f.pinned = true) : evict jobs = none := by
  induction jobs with
  | nil => rfl
  | cons f jobs ih =>
    rw [List.forall_mem_cons] at h
    rw [evict, ih h.2]
    exact if_pos h.1

/-- The least recent unpinned entry is evicted: behind it every entry is pinned. -/
theorem evict_leastRecent {d : JobEntry} {older : List JobEntry} (newer : List JobEntry) (hd : d.pinned = false)
    (ho : ∀ f ∈ older, f.pinned = true) : evict (newer ++ d :: older) = some (newer ++ older) := by
  induction newer with
  | nil =>
    rw [List.nil_append, evict, evict_pinned ho]
    exact if_neg (by simp [hd])
  | cons f newer ih => rw [List.cons_append, evict, ih]; rfl

/-! ### LOAD_JOB and DROP_JOB (R58 to R61) -/

theorem doLoadJob_badArg {j : JobLoad} (s : State) (h : jobEntryOf j = none) : doLoadJob j s = refuse .badArg s := by
  simp only [doLoadJob, h]

section
variable {s : State} {j : JobLoad} {e : JobEntry} (he : jobEntryOf j = some e)
include he

theorem doLoadJob_noRoom (h : s.intake.write e = none) : doLoadJob j s = refuse .noRoom s := by
  simp only [doLoadJob, he, h]

theorem doLoadJob_writes {i : Intake} (h : s.intake.write e = some i) :
    doLoadJob j s = accept ({ s with intake := i }, (s.awaitingJobOf e.job).map fun n => .bind n e) := by
  simp only [doLoadJob, he, h]

end

theorem doDropJob_badArg {job : BitVec 16} (s : State) (h : job.toNat = 0) : doDropJob job s = refuse .badArg s := if_pos h

section
variable {s : State} {job : BitVec 16} (h0 : job.toNat ≠ 0)
include h0

theorem doDropJob_notFound (h : s.job? job.toNat = none) : doDropJob job s = refuse .notFound s := by
  simp only [doDropJob, if_neg h0, h]

theorem doDropJob_removes (h : (s.job? job.toNat).isSome = true) : doDropJob job s =
    accept ({ s with intake := { s.intake with jobs := s.intake.jobs.filter fun e => decide (e.job ≠ job.toNat) } }, []) := by
  obtain ⟨e, he⟩ := Option.isSome_iff_exists.mp h
  simp only [doDropJob, if_neg h0, he]

end

theorem job?_eq_none {s : State} {job : Nat} (h : ∀ e ∈ s.intake.jobs, e.job ≠ job) : s.job? job = none := by
  simpa [State.job?] using h

theorem job?_isSome {s : State} {job : Nat} (h : ∃ e ∈ s.intake.jobs, e.job = job) : (s.job? job).isSome = true := by
  simpa [State.job?] using h

/-- A LOAD_JOB request is answered as `doLoadJob` answers it. -/
theorem loadJob_arrives {s : State} (h : s.awaitsRequest) (tag : Byte) (j : JobLoad) {a : Answer} (ha : doLoadJob j s.taking = a) :
    exec (.loadJob tag j) s = .next (a.state.answered tag (.loadJob j) a.result a.body) := by
  subst ha
  refine request_arrives tag _ (encodeRequest_length _ (by simp) (by simp)) h ?_
  rw [encodeRequest, requestCode, requestArgs, parseRequest_loadJob, parseJobLoad_encode]
  rfl

/-- A DROP_JOB request is answered as `doDropJob` answers it. -/
theorem dropJob_arrives {s : State} (h : s.awaitsRequest) (tag : Byte) (job : BitVec 16) {a : Answer}
    (ha : doDropJob job s.taking = a) :
    exec (.dropJob tag job) s = .next (a.state.answered tag (.dropJob job) a.result a.body) := by
  subst ha
  refine request_arrives tag _ (encodeRequest_length _ (by simp) (by simp)) h ?_
  rw [encodeRequest, requestCode, requestArgs, be16, parseRequest_dropJob, word16_parts]

/-- Settles O42: how the map is written, then the cases of `doLoadJob`. -/
theorem loadJobWritesEntry : Obligations.LoadJobWritesEntry := by
  intro s tag j h u waiting loaded
  have answer {a : Answer} (ha : doLoadJob j u = a) := loadJob_arrives h tag j ha
  refine ⟨fun he => answer (doLoadJob_badArg u he), fun e he => ?_⟩
  have write {w : Option Intake} (hw : s.intake.write e = w) : u.intake.write e = w := by rw [taking_intake, hw]
  have hwaiting : u.awaitingJobOf e.job = waiting e.job := by rw [taking_awaitingJobOf, awaitingJobOf_eq]
  have writes {jobs : List JobEntry} (hw : s.intake.write e = some { s.intake with jobs := e :: jobs }) :
      exec (.loadJob tag j) s = .next (loaded e jobs) := by
    rw [answer (doLoadJob_writes he (write hw)), hwaiting]
    rfl
  refine ⟨fun hw => writes (write_front hw), fun newer d older hno hlen hjobs hd ho => writes ?_,
    fun hno hlen hp => answer (doLoadJob_noRoom he (write ?_))⟩
  · rw [write_full hno hlen, hjobs, evict_leastRecent newer hd ho]; rfl
  · rw [write_full hno hlen, evict_pinned hp]; rfl

/-- Settles O43: the cases of `doDropJob`. -/
theorem dropJobRemovesEntry : Obligations.DropJobRemovesEntry := by
  intro s tag job h u
  have answer {a : Answer} (ha : doDropJob job u = a) := dropJob_arrives h tag job ha
  refine ⟨fun h0 => answer (doDropJob_badArg u h0), fun h0 hno => answer (doDropJob_notFound h0 ?_), fun h0 hex => ?_⟩
  · rw [taking_job?, job?_eq_none hno]
  · have hremoves := answer (doDropJob_removes h0 (by rw [taking_job?, job?_isSome hex]))
    rwa [taking_intake] at hremoves

end Sys2Proof.Machine
end

section
/-! The Transfer Arbiter (spec file 04): one equation for each end of a present, a lower, a move and a jog, the rules that post them, and
the choice between a permit and a grant; then the statement put together from them. -/

namespace Sys2Proof.Machine

/-! ### How an order ends (R113) -/

theorem isAborted_iff (how : End) : how.isAborted = true ↔ how = .refused .aborted ∨ how = .dropped ∨ how = .lost := by
  cases how with
  | refused reason => cases reason <;> simp [End.isAborted]
  | _ => simp [End.isAborted]

theorem isDone_of_isAborted {how : End} (h : how.isAborted = true) : how.isDone = false := by
  rcases (isAborted_iff how).mp h with rfl | rfl | rfl <;> rfl

theorem isAborted_refused {reason : Reason} (h : reason ≠ .aborted) : (End.refused reason).isAborted = false := by
  simp [Bool.eq_false_iff, isAborted_iff, h]

/-- A refusal that is no ABORTED raises ORDER_REFUSED (R72, R73, R78, R80). -/
theorem refusalTasks_refused (n : Nat) {reason : Reason} (h : reason ≠ .aborted) :
    refusalTasks n (.refused reason) = [.raise .orderRefused (.lay n) (reasonIndex reason)] := by
  cases reason with
  | aborted => exact absurd rfl h
  | _ => rfl

/-- A timeout's event is the slot's (R115); an order aborted, dropped or lost raises no ORDER_REFUSED. -/
theorem refusalTasks_silent (n : Nat) {how : End} (h : how = .timedOut ∨ how.isAborted = true) : refusalTasks n how = [] := by
  rcases h with rfl | h
  · rfl
  · rcases (isAborted_iff how).mp h with rfl | rfl | rfl <;> rfl

theorem isDone_of_silent {how : End} (h : how = .timedOut ∨ how.isAborted = true) : how.isDone = false := by
  rcases h with rfl | h
  · rfl
  · exact isDone_of_isAborted h

/-! ### Zones (R69) -/

/-- A record written over itself changes nothing. -/
theorem setLay_self {s : State} {n : Nat} {l : Lay} (hl : s.lay? n = some l) : s.setLay n (some l) = s := by
  have hn := lay?_lt hl
  have hget : s.lays[n] = some l := by simpa [hl, List.getElem?_eq_getElem hn] using lays_get hn
  rw [State.setLay, ← hget, List.set_getElem_self]

theorem isFree_iff (z : Zone) : z.isFree = true ↔ z = ⟨none, none⟩ := by
  obtain ⟨occupant, reservation⟩ := z
  simp [Zone.isFree]

/-- Where a lay stands after a move, with the states of Figure 21 written out (R77, R82). -/
theorem arrive_eq (z : ZoneId) (l : Lay) : l.arrive z =
    if z = .table then
      (if l.eff = .draining then { l with phase := some .pushing, target := some 0 }
      else { l.setEff .cutting with phase := none, target := none })
    else if l.eff = .draining then l else l.setEff (if z = .jog then .jogging else .waiting) := by
  cases z <;> rfl

theorem moveDetail_eq {z : ZoneId} (h : z ≠ .lift) : moveDetail z = if z = .jog then 65 else if z = .buffer then 66 else 67 := by
  cases z with
  | lift => exact absurd rfl h
  | _ => rfl

section
variable {s : State} {n : Nat} {l : Lay} (hl : s.lay? n = some l) (f : Lay → Lay) (z : ZoneId)
include hl

/-- A reservation is dropped and the lay it was for changes. -/
theorem unreserve_updateLay : (s.unreserve z).updateLay n f =
    { s with zones := s.zones.set z { s.zones.get z with reservation := none }, lays := s.lays.set n (some (f l)) } :=
  updateLay_some (s := s.unreserve z) hl f

/-- A lay leaves its zone and changes. -/
theorem vacate_updateLay : (s.vacate z n).updateLay n f =
    { s with
      zones := s.zones.set z { s.zones.get z with occupant := none }
      lays := s.lays.set n (some (f { l with zone := none })) } := by
  rw [State.vacate, updateLay_updateLay]
  exact updateLay_some (s := s.setZone z _) hl _

/-- A lay takes its zone and changes. -/
theorem occupy_updateLay : (s.occupy z n).updateLay n f =
    { s with zones := s.zones.set z ⟨some n, none⟩, lays := s.lays.set n (some (f { l with zone := some z })) } := by
  rw [State.occupy, updateLay_updateLay]
  exact updateLay_some (s := s.setZone z _) hl _

/-- A lay passes from one zone to another and changes. -/
theorem vacate_occupy_updateLay (a : ZoneId) : ((s.vacate a n).occupy z n).updateLay n f =
    { s with
      zones := (s.zones.set a { s.zones.get a with occupant := none }).set z ⟨some n, none⟩
      lays := s.lays.set n (some (f { l with zone := some z })) } := by
  rw [State.vacate, State.occupy, updateLay_setZone, updateLay_updateLay, updateLay_updateLay]
  exact updateLay_some (s := (s.setZone a _).setZone z _) hl _

/-! ### Ends of a present, a lower, a move and a jog (R72, R73, R77 to R80) -/

theorem presentEnds_done (value : BitVec 32) : presentEnds n (.done value) s =
    ({ s with
      zones := { s.zones with lift := ⟨some n, none⟩ }
      lays := s.lays.set n (some (Lay.setEff .waiting { l with zone := some .lift })) }, []) :=
  congrArg (·, []) (occupy_updateLay hl (Lay.setEff .waiting) .lift)

theorem presentEnds_failed {how : End} (h : how.isDone = false) : presentEnds n how s =
    ({ s with
      zones := s.zones.set .lift { s.zones.get .lift with reservation := none }
      lays := s.lays.set n (some (l.setEff .queued)) }, refusalTasks n how) := by
  rw [presentEnds, h, unreserve_updateLay hl]; rfl

theorem lowerEnds_done (value : BitVec 32) : lowerEnds n (.done value) s =
    ({ s with
      zones := { s.zones with lift := { s.zones.lift with occupant := none } }
      lays := s.lays.set n (some { l with
        zone := none, state := .finishing, cause := none, heldFrom := none, holdWanted := false, abandonWanted := false
        abandoned := true, phase := none }) }, [.finishTest n]) :=
  congrArg (·, [Task.finishTest n]) (vacate_updateLay hl _ .lift)

theorem lowerEnds_failed {how : End} (h : how.isDone = false) : lowerEnds n how s =
    ({ s with lays := s.lays.set n (some (l.setEff .waiting)) }, refusalTasks n how) := by
  rw [lowerEnds, h, updateLay_some hl]; rfl

theorem moveLayEnds_done (a b : ZoneId) (value : BitVec 32) : moveLayEnds a b n (.done value) s =
    ({ s with
      zones := (s.zones.set a { s.zones.get a with occupant := none }).set b ⟨some n, none⟩
      lays := s.lays.set n (some (Lay.arrive b { l with zone := some b })) }, []) :=
  congrArg (·, []) (vacate_occupy_updateLay hl (Lay.arrive b) b a)

/-- A move that fails leaves the lay where it stood. -/
theorem moveLayEnds_refused (a b : ZoneId) {how : End} (hd : how.isDone = false) (ha : how.isAborted = false) :
    moveLayEnds a b n how s =
      ({ s with
        zones := s.zones.set b { s.zones.get b with reservation := none }
        lays := s.lays.set n (some (if l.eff = .draining then l else l.setEff .waiting)) }, refusalTasks n how) := by
  rw [moveLayEnds, hd, ha, unreserve_updateLay hl]; rfl

/-- Aborted, dropped or lost, a move raises INTERRUPTED with its destination's detail (R79). -/
theorem moveLayEnds_aborted (a b : ZoneId) {how : End} (ha : how.isAborted = true) : moveLayEnds a b n how s =
    ({ s with
      zones := s.zones.set b { s.zones.get b with reservation := none }
      lays := s.lays.set n (some (if l.eff = .draining then l else l.setEff .waiting)) },
      [.raise .interrupted (.lay n) (moveDetail b)]) := by
  rw [moveLayEnds, isDone_of_isAborted ha, ha, unreserve_updateLay hl]; rfl

theorem jogEnds_done (value : BitVec 32) : jogEnds n (.done value) s =
    (if l.eff = .jogging then { s with lays := s.lays.set n (some (l.setEff .waiting)) } else s, []) := by
  have hset : jogEnds n (.done value) s = (s.setLay n (some (if l.eff = .jogging then l.setEff .waiting else l)), []) :=
    congrArg (·, []) (updateLay_some hl _)
  rw [hset]
  split
  · rfl
  · rw [setLay_self hl]

end

theorem jogEnds_failed (s : State) (n : Nat) {how : End} (h : how.isDone = false) : jogEnds n how s = (s, refusalTasks n how) := by
  rw [jogEnds, h]; rfl

/-! ### Presents (R10, R71) -/

/-- The lay of the number is unpresented (R10). -/
def State.isUnpresented (s : State) (n : Nat) : Prop :=
  ∃ l, s.lay? n = some l ∧ l.zone = none ∧ (l.eff = .awaitJob ∨ l.eff = .queued ∨ l.eff = .moving)

theorem isUnpresented_iff (s : State) (n : Nat) : (s.lay? n).any Lay.unpresented = true ↔ s.isUnpresented n := by
  simp [Option.any_eq_true, State.isUnpresented, Lay.unpresented, or_assoc]

theorem headUnpresented_none {s : State} (h : ∀ m ∈ s.order, ¬s.isUnpresented m) : s.headUnpresented = none :=
  List.find?_eq_none.mpr fun m hm => (not_congr (isUnpresented_iff s m)).mpr (h m hm)

theorem headUnpresented_oldest {s : State} {n : Nat} {older younger : List Nat} (ho : s.order = older ++ n :: younger)
    (hb : ∀ m ∈ older, ¬s.isUnpresented m) (hn : s.isUnpresented n) : s.headUnpresented = some n := by
  have hold : older.find? (fun m => (s.lay? m).any Lay.unpresented) = none :=
    List.find?_eq_none.mpr fun m hm => (not_congr (isUnpresented_iff s m)).mpr (hb m hm)
  rw [State.headUnpresented, ho, List.find?_append, hold, Option.none_or]
  exact List.find?_cons_of_pos ((isUnpresented_iff s n).mpr hn)

theorem presentRule_noHead {s : State} (h : s.headUnpresented = none) : presentRule s = none := by
  rw [presentRule, h]

/-- The head unpresented lay may be presented by the LIFT slot of the number (R71). -/
def State.presentDue (s : State) (l : Lay) (k : Nat) : Prop :=
  s.cell.state = .running ∧ s.zones.lift = ⟨none, none⟩ ∧ l.state = .queued ∧ l.holdWanted = false ∧
    s.working .lift = some k ∧ (s.slot k).state = .ready

section
variable {s : State} {n : Nat} {l : Lay} (hh : s.headUnpresented = some n) (hl : s.lay? n = some l)
include hh hl

theorem presentRule_due {k : Nat} (h : s.presentDue l k) : presentRule s = some
    ({ s with
      zones := { s.zones with lift := ⟨none, some n⟩ }
      lays := s.lays.set n (some { l with state := .moving }) }, [.post k ⟨.present l.height, [.arbiter n]⟩]) := by
  obtain ⟨hrun, hfree, hqueued, hhold, hlift, hready⟩ := h
  have hset := updateLay_some (s := s.setZone .lift ⟨none, some n⟩) hl fun l => { l with state := .moving }
  simp only [presentRule, hh, hlift, hl]
  rw [if_pos ⟨hrun, (isFree_iff _).mpr hfree, hqueued, hhold, hready⟩, hset]
  rfl

theorem presentRule_notDue (h : ∀ k, ¬s.presentDue l k) : presentRule s = none := by
  cases hlift : s.working .lift with
  | none => simp only [presentRule, hh, hlift]
  | some k =>
    simp only [presentRule, hh, hlift, hl]
    refine if_neg fun ⟨hrun, hfree, hqueued, hhold, hready⟩ => h k ?_
    exact ⟨hrun, (isFree_iff _).mp hfree, hqueued, hhold, hlift, hready⟩

end

/-! ### Move requests and the mover (R74 to R76) -/

/-- The mover is free: its slot READY and quiet, no permit outstanding (R75). -/
def State.moverIsFree (s : State) : Prop :=
  (∃ x, s.workingSlot .xfer = some x ∧ x.state = .ready ∧ x.inFlight = none ∧ x.posted = []) ∧
    s.gate.state ≠ .opened ∧ s.gate.state ≠ .stroke

theorem moverFree_iff (s : State) : s.moverFree = true ↔ s.moverIsFree := by
  simp [State.moverFree, State.moverIsFree, Option.any_eq_true, Slot.isQuiet, and_assoc]

/-- The move request of the lay stands (R74). -/
def State.requestStands (s : State) (a b : ZoneId) (n : Nat) : Prop :=
  s.cell.state = .running ∧ s.zones.get b = ⟨none, none⟩ ∧ (s.zones.get a).occupant = some n ∧
    ∃ l, s.lay? n = some l ∧ (l.state = .waiting ∨ (l.state = .draining ∧ s.reservedFor n = false)) ∧
      l.holdWanted = false ∧ l.abandonWanted = false

theorem requestLay_iff (s : State) (a b : ZoneId) (n : Nat) : s.requestLay (a, b) = some n ↔ s.requestStands a b n := by
  simp [State.requestLay, State.requestStands, State.mayMove, State.zone, isFree_iff, Option.filter_eq_some_iff, Option.any_eq_true,
    and_assoc]

theorem requestLay_none_iff (s : State) (a b : ZoneId) : s.requestLay (a, b) = none ↔ ∀ n, ¬s.requestStands a b n := by
  simp only [Option.eq_none_iff_forall_ne_some, ne_eq, requestLay_iff]

/-- The requests are asked for downstream first (R75). -/
theorem dueMove_eq (s : State) : s.dueMove =
    if s.moverFree then
      ((s.requestLay (.buffer, .table)).map fun n => ((.buffer, .table), n)).or
        (((s.requestLay (.jog, .buffer)).map fun n => ((.jog, .buffer), n)).or
          ((s.requestLay (.lift, .jog)).map fun n => ((.lift, .jog), n)))
    else none := by
  rw [State.dueMove, moves]
  simp only [List.findSome?_cons, List.findSome?_nil]
  cases s.requestLay (.buffer, .table) with
  | some n => rfl
  | none =>
    cases s.requestLay (.jog, .buffer) with
    | some n => rfl
    | none => cases s.requestLay (.lift, .jog) <;> rfl

theorem dueMove_table_iff (s : State) (n : Nat) :
    s.dueMove = some ((.buffer, .table), n) ↔ s.moverIsFree ∧ s.requestStands .buffer .table n := by
  rw [← moverFree_iff, ← requestLay_iff, dueMove_eq]
  simp [Option.or_eq_some_iff]

theorem dueMove_buffer_iff (s : State) (n : Nat) : s.dueMove = some ((.jog, .buffer), n) ↔
    s.moverIsFree ∧ s.requestStands .jog .buffer n ∧ ∀ m, ¬s.requestStands .buffer .table m := by
  rw [← moverFree_iff, ← requestLay_iff, ← requestLay_none_iff, dueMove_eq]
  simp [Option.or_eq_some_iff, and_comm]

theorem dueMove_jog_iff (s : State) (n : Nat) : s.dueMove = some ((.lift, .jog), n) ↔
    s.moverIsFree ∧ s.requestStands .lift .jog n ∧ (∀ m, ¬s.requestStands .jog .buffer m) ∧
      ∀ m, ¬s.requestStands .buffer .table m := by
  rw [← moverFree_iff, ← requestLay_iff, ← requestLay_none_iff, ← requestLay_none_iff, dueMove_eq]
  simp [Option.or_eq_some_iff, and_assoc, and_comm]

theorem grantMove_eq {s : State} {n k : Nat} {l : Lay} (a b : ZoneId) (hl : s.lay? n = some l) (hk : s.working .xfer = some k) :
    grantMove (a, b) n s = ({ s with
      zones := s.zones.set b ⟨none, some n⟩
      lays := s.lays.set n (some (if l.state = .draining then l else { l with state := .moving })) },
      [.post k ⟨.moveLay a b, [.arbiter n]⟩]) := by
  have hset := updateLay_some (s := s.setZone b ⟨none, some n⟩) hl fun l =>
    if l.state = .draining then l else { l with state := .moving }
  rw [grantMove, hset, State.postTo, hk]
  rfl

/-! ### A permit beside a grant (R75, R97, log 5) -/

section
variable {s : State} {m : ZoneId × ZoneId} {n p : Nat}

theorem permitOrGrantRule_grants (hm : s.dueMove = some (m, n)) (hp : s.duePermit = none) :
    permitOrGrantRule s = some (grantMove m n s) := by
  simp only [permitOrGrantRule, hm, hp]

theorem permitOrGrantRule_permits (hm : s.dueMove = none) (hp : s.duePermit = some p) :
    permitOrGrantRule s = some (issuePermit p s) := by
  simp only [permitOrGrantRule, hm, hp]

/-- Where both are due the free choice decides, and nothing is known of it. -/
theorem permitOrGrantRule_either (hm : s.dueMove = some (m, n)) (hp : s.duePermit = some p) :
    permitOrGrantRule s = some (issuePermit p { s with choices := s.choices + 1 }) ∨
      permitOrGrantRule s = some (grantMove m n { s with choices := s.choices + 1 }) := by
  simp only [permitOrGrantRule, hm, hp]
  split
  · exact .inl rfl
  · exact .inr rfl

theorem permitOrGrantRule_none (hm : s.dueMove = none) (hp : s.duePermit = none) : permitOrGrantRule s = none := by
  simp only [permitOrGrantRule, hm, hp]

end

/-! ### Jogs (R80) -/

/-- The lay jogs, no jog of it is outstanding and nothing is wanted of it (R80). -/
def State.waitsToJog (s : State) (n : Nat) (l : Lay) : Prop :=
  l.state = .jogging ∧ l.holdWanted = false ∧ l.abandonWanted = false ∧ s.arbitrating n = false

theorem jogWaits_iff {s : State} {n : Nat} {l : Lay} (hl : s.lay? n = some l) : s.jogWaits n = true ↔ s.waitsToJog n l := by
  simp [State.jogWaits, State.waitsToJog, hl, and_assoc]

section
variable {s : State} {n ms : Nat} {l : Lay} (ho : s.zones.jog.occupant = some n) (hl : s.lay? n = some l)
include ho hl

theorem jogRule_stands (h : ¬s.waitsToJog n l) : jogRule s = none := by
  rw [jogRule, ho, Option.filter_some_neg (Bool.eq_false_iff.mpr ((not_congr (jogWaits_iff hl)).mpr h))]

variable (hw : s.waitsToJog n l) (hj : l.jogTime = some ms)
include hw hj

/-- Without a JOG slot, or with a jog time of 0, the jog is passed over (log 36). -/
theorem jogRule_passes (h : s.working .jog = none ∨ ms = 0) :
    jogRule s = some ({ s with lays := s.lays.set n (some { l with state := .waiting }) }, []) := by
  rw [jogRule, ho, Option.filter_some_pos ((jogWaits_iff hl).mpr hw)]
  simp only [hl, Option.bind_some, hj, Option.getD_some, updateLay_some hl]
  split
  · rfl
  · rename_i k hk
    exact if_pos (h.resolve_left (by simp [hk]))

theorem jogRule_jog {k : Nat} (hk : s.working .jog = some k) (h0 : ms ≠ 0) :
    jogRule s = if s.cell.state = .running then some (s, [.post k ⟨.jog ms, [.arbiter n]⟩]) else none := by
  rw [jogRule, ho, Option.filter_some_pos ((jogWaits_iff hl).mpr hw)]
  simp only [hl, Option.bind_some, hj, Option.getD_some, hk, if_neg h0]

end

/-! ### The arbiter's orders as a whole -/

/-- Settles O59: each end of each order, then the rules that post them. -/
theorem arbiterOrderEndsMoveLay : Obligations.ArbiterOrderEndsMoveLay := by
  refine ⟨?ends, ?presents, ?grants, fun s n k l a b hl hk => grantMove_eq a b hl hk, ?jogs⟩
  case ends =>
    intro s n k tag l hl goesTo drains ends lay freed quiet refusal
    have silent {how : End} (h : how = .timedOut ∨ quiet how) : how = .timedOut ∨ how.isAborted = true := by
      rwa [isAborted_iff]
    refine ⟨fun h => ⟨presentEnds_done hl, fun reason hr => ?_, fun how hq => ?_⟩, lowerEnds_done hl, fun reason hr => ?_,
      fun how hq => ?_, fun a b hab => ⟨fun value => ?_, fun reason hr => ?_, ?_, fun how hq => ?_⟩,
      fun ms => ⟨jogEnds_done hl, fun reason hr => ?_, fun how hq => ?_⟩⟩
    · exact (presentEnds_failed hl rfl).trans (congrArg _ (refusalTasks_refused n hr))
    · exact (presentEnds_failed hl (isDone_of_silent (silent hq))).trans (congrArg _ (refusalTasks_silent n (silent hq)))
    · exact (lowerEnds_failed hl rfl).trans (congrArg _ (refusalTasks_refused n hr))
    · exact (lowerEnds_failed hl (isDone_of_silent (silent hq))).trans (congrArg _ (refusalTasks_silent n (silent hq)))
    · refine (moveLayEnds_done hl a b value).trans ?_
      rw [arrive_eq]
      rfl
    · exact (moveLayEnds_refused hl a b rfl (isAborted_refused hr)).trans (congrArg _ (refusalTasks_refused n hr))
    · exact moveLayEnds_refused hl a b (how := .timedOut) rfl rfl
    · refine (moveLayEnds_aborted hl a b ((isAborted_iff how).mpr hq)).trans ?_
      rw [moveDetail_eq (by rintro rfl; simp at hab)]
      rfl
    · exact (jogEnds_failed s n rfl).trans (congrArg _ (refusalTasks_refused n hr))
    · exact (jogEnds_failed s n (isDone_of_silent (silent hq))).trans (congrArg _ (refusalTasks_silent n (silent hq)))
  case presents =>
    intro s unpresented
    refine ⟨fun n l older younger ho hb hn hl => ?_, fun h => presentRule_noHead (headUnpresented_none h)⟩
    have hh := headUnpresented_oldest ho hb hn
    exact ⟨fun k => presentRule_due hh hl, presentRule_notDue hh hl⟩
  case grants =>
    exact fun s => ⟨dueMove_table_iff s, dueMove_buffer_iff s, dueMove_jog_iff s, fun a b n => permitOrGrantRule_grants,
      fun p => permitOrGrantRule_permits, fun a b n p => permitOrGrantRule_either, permitOrGrantRule_none⟩
  case jogs =>
    intro s n ms l ho hl hj waits
    refine ⟨jogRule_stands ho hl, fun hw => jogRule_passes ho hl hw hj, fun k hw hk h0 => ?_⟩
    rw [jogRule_jog ho hl hw hj hk h0]
    exact ⟨fun h => if_pos h, fun h => if_neg h⟩

end Sys2Proof.Machine
end

section
/-! The Stroke Gate (spec file 05): one equation for each case of a lock-out, of a timer's expiry, of a STROKE_BEGIN and of a STROKE's end;
when a permit is due and what its issue writes; then the statements put together from them. -/

namespace Sys2Proof.Machine

/-! ### Lock-outs, failed and unbidden strokes (R101, R102) -/

/-- The gate is LOCKED_OUT without a permit. -/
def State.lockedOut (s : State) : State :=
  { s with gate := { s.gate with state := .lockedOut, permit := none, window := none, timer := none } }

/-- The gate is LOCKED_OUT, the permit's lay back in POSITIONING and a deferred hold taken. -/
def State.interrupted (s : State) (p : Permit) : State :=
  (s.lockedOut.updateLay p.lay fun l => { l with phase := some .positioning }).takeDeferred

section
variable {s : State}

theorem lockOutGate_idle (h : s.gate.permit = none) : lockOutGate s = (s.lockedOut, []) := by
  rw [lockOutGate, h]; rfl

theorem lockOutGate_permit {p : Permit} (h : s.gate.permit = some p) :
    lockOutGate s = (s.interrupted p, [.raise .interrupted (.lay p.lay) p.step]) := by
  rw [lockOutGate, h]; rfl

theorem strokeFails_permit {p : Permit} (detail : Nat) (h : s.gate.permit = some p) : strokeFails detail s =
    (s.interrupted p, [.raise .interrupted (.lay p.lay) p.step, .raise .strokeTimeout s.knifeSubject detail, .lockOutOrder]) := by
  rw [strokeFails, lockOutGate_permit h]; rfl

theorem unbidden_idle (detail : Nat) (h : s.gate.permit = none) :
    unbidden detail s = (s.lockedOut, [.raise .unbiddenStroke s.knifeSubject detail, .lockOutOrder]) := by
  rw [unbidden, lockOutGate_idle h]; rfl

theorem unbidden_permit {p : Permit} (detail : Nat) (h : s.gate.permit = some p) : unbidden detail s =
    (s.interrupted p, [.raise .interrupted (.lay p.lay) p.step, .raise .unbiddenStroke s.knifeSubject detail, .lockOutOrder]) := by
  rw [unbidden, lockOutGate_permit h]; rfl

/-! ### The permit window and the stroke timer (R100, R101) -/

theorem windowExpiry_opened {p : Permit} (hg : s.gate.state = .opened) (hp : s.gate.permit = some p) :
    windowExpiry s = ({ s with gate := { s.gate with state := .closed, permit := none, window := none, timer := none } },
      s.postTo .knife .stop (.gate p.lay) ++ [.raise .strokeLapse (.lay p.lay) p.step]) := by
  simp only [windowExpiry, hg, hp]; rfl

theorem windowExpiry_elsewhere (hg : s.gate.state ≠ .opened) : windowExpiry s = (s, []) := by
  unfold windowExpiry
  split
  · rename_i h _; exact absurd h hg
  · rfl

theorem strokeExpiry_stroke {p : Permit} (hg : s.gate.state = .stroke) (hp : s.gate.permit = some p) : strokeExpiry s =
    (s.interrupted p, [.raise .interrupted (.lay p.lay) p.step, .raise .strokeTimeout s.knifeSubject 0, .lockOutOrder]) := by
  rw [strokeExpiry, if_pos hg, strokeFails_permit 0 hp]

theorem strokeExpiry_elsewhere (hg : s.gate.state ≠ .stroke) : strokeExpiry s = (s, []) := if_neg hg

theorem exec_permitWindowExpiry {t : State} {work : List Task} (hr : s.resetHeld = false) (h : windowExpiry s = (t, work)) :
    exec .permitWindowExpiry s = .next (t.after work) := congrArg Host.Outcome.next (event_after hr h)

theorem exec_strokeTimerExpiry {t : State} {work : List Task} (hr : s.resetHeld = false) (h : strokeExpiry s = (t, work)) :
    exec .strokeTimerExpiry s = .next (t.after work) := congrArg Host.Outcome.next (event_after hr h)

end

/-- Settles O10: both expiries, in the gate state whose timer runs and in the others. -/
theorem gateTimersExpire : Obligations.GateTimersExpire := fun _ hr =>
  ⟨fun _ hg hp => exec_permitWindowExpiry hr (windowExpiry_opened hg hp),
    fun hg => exec_permitWindowExpiry hr (windowExpiry_elsewhere hg),
    fun _ hg hp => exec_strokeTimerExpiry hr (strokeExpiry_stroke hg hp),
    fun hg => exec_strokeTimerExpiry hr (strokeExpiry_elsewhere hg)⟩

/-! ### STROKE_BEGIN (R98) -/

/-- The STROKE_BEGIN of the slot with the tag is that of the stroke the gate has permitted. -/
def State.bids (s : State) (k tag : Nat) : Prop :=
  s.gate.state = .opened ∧ s.working .knife = some k ∧ ∃ p, s.gate.permit = some p ∧ p.tag = tag

section
variable {s : State} {k tag : Nat}

theorem bids_iff : s.bids k tag ↔
    s.gate.state = .opened ∧ s.working .knife = some k ∧ (s.gate.permit.any fun p => decide (p.tag = tag)) = true := by
  simp [State.bids, Option.any_eq_true]

theorem strokeBegins_bidden (h : s.bids k tag) : strokeBegins k tag s =
    ({ s with gate := { s.gate with state := .stroke, window := none, timer := some ⟨0, s.cell.params.strokeTime⟩ } }, []) :=
  if_pos (bids_iff.mp h)

theorem strokeBegins_unbidden (h : ¬s.bids k tag) : strokeBegins k tag s = unbidden tag s := if_neg (mt bids_iff.mpr h)

theorem takeStrokeBegin_knife (tag : Byte) (h : (s.slot k).kind? = some .knife) :
    takeStrokeBegin k tag s = strokeBegins k tag.toNat s := by
  rw [takeStrokeBegin, isKind_eq, h]; rfl

theorem takeStrokeBegin_stray (tag : Byte) (h : (s.slot k).kind? ≠ some .knife) :
    takeStrokeBegin k tag s = (s, [.raise .strayReport (.slot k) 513]) := by
  rw [takeStrokeBegin, isKind_eq, decide_eq_false h]; rfl

/-- A STROKE_BEGIN that a slot hears leads to what follows the gate's taking of it, the copy last (R179, R180). -/
theorem exec_strokeBegin {node : Nat} {tag : Byte} {t : State} {work : List Task} (hh : s.hears node k)
    (h : takeStrokeBegin k tag s.reported = (t, work)) :
    exec (.strokeBegin node tag) s = .next (t.after (work ++ s.copyWork k node tag .strokeBegin)) := by
  have harrives := exec_report hh tag .strokeBegin
  rw [handReport, h] at harrives
  exact harrives

end

/-- Settles O16: a bidden stroke, an unbidden one with and without a permit, and a station of another kind. -/
theorem strokeBeginReachesGate : Obligations.StrokeBeginReachesGate := by
  intro s node k tag hh u x copies bidden lockedOut
  have knife (hx : x.kind? = some .knife) : takeStrokeBegin k tag u = strokeBegins k tag.toNat u := takeStrokeBegin_knife tag hx
  have unbid (hx : x.kind? = some .knife) (hb : ¬bidden) : takeStrokeBegin k tag u = unbidden tag.toNat u :=
    (knife hx).trans (strokeBegins_unbidden hb)
  exact ⟨fun hx hb => exec_strokeBegin hh ((knife hx).trans (strokeBegins_bidden hb)),
    fun hx hb hp => exec_strokeBegin hh ((unbid hx hb).trans (unbidden_idle _ hp)),
    fun p hx hb hp => exec_strokeBegin hh ((unbid hx hb).trans (unbidden_permit _ hp)),
    fun hx => exec_strokeBegin hh (takeStrokeBegin_stray tag hx)⟩

/-! ### When a permit is due, and its issue (R96, R97) -/

theorem isQuiet_iff (x : Slot) : x.isQuiet = true ↔ x.inFlight = none ∧ x.posted = [] := by simp [Slot.isQuiet]

theorem guardLocked_iff (s : State) :
    s.guardLocked = true ↔ ∃ gd, s.guardState = some gd ∧ gd.isOpen = false ∧ gd.locked = true := by
  simp [State.guardLocked, Option.any_eq_true]

theorem moverQuiet_iff (s : State) :
    (s.workingSlot .xfer).all Slot.isQuiet = true ↔ ∀ x, s.workingSlot .xfer = some x → x.inFlight = none ∧ x.posted = [] := by
  simp only [Option.all_eq_true, isQuiet_iff]

/-- The knife stands ready at TOP with nothing to do. -/
theorem knifeWaits_iff (s : State) :
    ((s.workingSlot .knife).any fun x => decide (x.state = .ready) && x.isQuiet && decide (x.position = some .top)) = true ↔
      ∃ x, s.workingSlot .knife = some x ∧ x.state = .ready ∧ x.inFlight = none ∧ x.posted = [] ∧ x.position = some .top := by
  simp only [Option.any_eq_true, Bool.and_eq_true, decide_eq_true_eq, isQuiet_iff, and_assoc]

theorem outClear_iff (s : State) :
    s.outClear = true ↔ ∀ x, s.workingSlot .out = some x → ∀ o ∈ x.orders, ∀ d, o.kind ≠ .deliver d := by
  simp only [State.outClear, Option.all_eq_true, List.all_eq_true]
  refine forall₂_congr fun x _ => forall₂_congr fun o _ => ?_
  cases o.kind <;> simp

theorem eff_of_unheld {l : Lay} (h : l.state ≠ .held) : l.eff = l.state := if_neg h

/-- A lay that is not HELD cuts where its record says so. -/
theorem cutting_iff (l : Lay) : l.state = .cutting ↔ l.eff = .cutting ∧ l.state ≠ .held := by
  constructor
  · intro h
    have hs : l.state ≠ .held := by simp [h]
    exact ⟨(eff_of_unheld hs).trans h, hs⟩
  · rintro ⟨he, hs⟩
    exact (eff_of_unheld hs).symm.trans he

/-- The lay waits for its permit and the conditions of R97 hold. -/
def State.permitHolds (s : State) (n : Nat) (l : Lay) : Prop :=
  l.phase = some .stroking ∧ l.state = .cutting ∧ l.holdWanted = false ∧ l.abandonWanted = false ∧ s.clampedFor n = true ∧
    (∃ gd, s.guardState = some gd ∧ gd.isOpen = false ∧ gd.locked = true) ∧
    (∀ x, s.workingSlot .xfer = some x → x.inFlight = none ∧ x.posted = []) ∧ s.seq.gauge = .known (l.target.getD 0) true ∧
    (∃ x, s.workingSlot .knife = some x ∧ x.state = .ready ∧ x.inFlight = none ∧ x.posted = [] ∧ x.position = some .top) ∧
    (∀ x, s.workingSlot .out = some x → ∀ o ∈ x.orders, ∀ d, o.kind ≠ .deliver d) ∧ s.cell.state = .running

theorem permitHolds_iff (s : State) (n : Nat) (l : Lay) :
    s.permitHolds n l ↔ (l.eff = .cutting ∧ l.phase = some .stroking) ∧ (s.permitConditions n l).all id = true := by
  rw [State.permitHolds, cutting_iff]
  simp only [State.permitConditions, List.all_cons, List.all_nil, id, Bool.and_eq_true, Bool.not_eq_true', decide_eq_true_eq,
    guardLocked_iff, moverQuiet_iff, knifeWaits_iff, outClear_iff]
  constructor
  · rintro ⟨hphase, ⟨hcut, hheld⟩, hhold, habandon, hclamp, hguard, hxfer, hgauge, hknife, hout, hrun⟩
    exact ⟨⟨hcut, hphase⟩, hclamp, hguard, hxfer, hgauge, hknife, hout, ⟨⟨hheld, hhold⟩, habandon⟩, hrun, trivial⟩
  · rintro ⟨⟨hcut, hphase⟩, hclamp, hguard, hxfer, hgauge, hknife, hout, ⟨⟨hheld, hhold⟩, habandon⟩, hrun, -⟩
    exact ⟨hphase, ⟨hcut, hheld⟩, hhold, habandon, hclamp, hguard, hxfer, hgauge, hknife, hout, hrun⟩

theorem strokingLay_iff (s : State) (n : Nat) : s.strokingLay = some n ↔
    s.gate.state = .closed ∧ s.zones.table.occupant = some n ∧
      ∃ l, s.lay? n = some l ∧ l.eff = .cutting ∧ l.phase = some .stroking := by
  simp [State.strokingLay, Option.filter_eq_some_iff, Option.any_eq_true]

theorem duePermit_iff (s : State) (n : Nat) : s.duePermit = some n ↔
    s.gate.state = .closed ∧ s.zones.table.occupant = some n ∧ ∃ l, s.lay? n = some l ∧ s.permitHolds n l := by
  rw [State.duePermit, Option.filter_eq_some_iff, strokingLay_iff]
  constructor
  · rintro ⟨⟨hg, ho, l, hl, hcut⟩, hall⟩
    rw [hl] at hall
    exact ⟨hg, ho, l, hl, (permitHolds_iff s n l).mpr ⟨hcut, hall⟩⟩
  · rintro ⟨hg, ho, l, hl, hp⟩
    obtain ⟨hcut, hall⟩ := (permitHolds_iff s n l).mp hp
    exact ⟨⟨hg, ho, l, hl, hcut⟩, by rw [hl]; exact hall⟩

/-- The record of a slot that has sent an order (R112). -/
def Slot.sent (o : Order) (ms : Nat) (x : Slot) : Slot :=
  { x with
    inFlight := some ⟨x.nextTag, o, ms⟩
    nextTag := (x.nextTag + 1) % 16
    lastStrokeTag := if o.kind = .stroke then some x.nextTag else x.lastStrokeTag }

theorem slot_sendOrder (s : State) (k j : Nat) (o : Order) (ms : Nat) :
    (s.sendOrder k o ms).slot j = if j = k ∧ k < s.slots.length then (s.slot k).sent o ms else s.slot j :=
  slot_setSlot s k j ((s.slot k).sent o ms)

theorem issuePermit_eq {s : State} {k : Nat} (n : Nat) (hk : s.working .knife = some k) : issuePermit n s =
    ({ s.sendOrder k ⟨.stroke, [.gate n]⟩ (s.slot k).timeoutOf with gate := { s.gate with
        state := .opened, permit := some ⟨n, s.stepDetail n, (s.slot k).nextTag⟩, permits := bump32 s.gate.permits
        window := some s.cell.params.permitWindow, timer := none } }, []) := by
  rw [issuePermit, hk]

/-- Settles O57: the due permit read condition by condition, and the issue as the sending of its STROKE. -/
theorem permitIssuedWhenAllHold : Obligations.PermitIssuedWhenAllHold := by
  refine ⟨duePermit_iff, fun s n k hk hlen => ⟨_, issuePermit_eq n hk, rfl, ?_⟩⟩
  have hsent : (s.sendOrder k ⟨.stroke, [.gate n]⟩ (s.slot k).timeoutOf).slot k =
      (s.slot k).sent ⟨.stroke, [.gate n]⟩ (s.slot k).timeoutOf := by rw [slot_sendOrder, if_pos ⟨rfl, hlen⟩]
  refine ⟨congrArg Slot.inFlight hsent, congrArg Slot.nextTag hsent, congrArg Slot.lastStrokeTag hsent, fun j hj => ?_,
    rfl, rfl, rfl, rfl⟩
  exact (slot_sendOrder s k j _ _).trans (if_neg fun h => hj h.1)

/-! ### A cut commits (R36, R45, R90, R99, R103, R148) -/

/-- The record after a cut, with R36's runs and step written out. -/
theorem commitCut_record {l : Lay} {i g : Nat} (hi : l.step = some i) (hg : l.target = some g) : l.commitCut =
    { l with
      x := some g
      strokes := bump16 l.strokes
      phase := some .releasing
      runs := match l.runs with
        | some (r + 2) => some (r + 1)
        | _ => none
      step := match l.runs with
        | some (_ + 2) => some i
        | _ => some (i + 1) } := by
  rcases hr : l.runs with _ | _ | _ | r <;> simp [Lay.commitCut, Lay.countRun, Lay.advance, hr, hi, hg]

theorem frontPiece_eq {l : Lay} {x y g : Nat} {st : Step} (n : Nat) (hx : l.x = some x) (hy : l.y = some y) (hg : l.target = some g) :
    frontPiece n l (some st) = ⟨n, st.pieceClass, x - g, y⟩ := by
  simp [frontPiece, hx, hy, hg]

@[simp] theorem takeDeferred_gate (s : State) : s.takeDeferred.gate = s.gate := by
  unfold State.takeDeferred; split <;> simp

@[simp] theorem takeDeferred_seq (s : State) : s.takeDeferred.seq = s.seq := by
  unfold State.takeDeferred; split <;> simp

theorem takeDeferred_events (s : State) : s.takeDeferred.events = { s.events with deferred := none } := by
  unfold State.takeDeferred
  split
  · rename_i h; rw [← h]
  · simp

theorem takeDeferred_absent {s : State} (h : s.events.deferred = none) : s.takeDeferred = s := by
  rw [State.takeDeferred, h]

/-- A deferred hold of an unheld lay holds it, in whatever phase it stands (R148). -/
theorem takeDeferred_holds {s : State} {d : DeferredHold} {l : Lay} (h : s.events.deferred = some d) (hl : s.lay? d.lay = some l)
    (hs : l.state ≠ .held) : s.takeDeferred =
      { s with
        events := { s.events with deferred := none }
        lays := s.lays.set d.lay (some (l.held (.event d.kind d.detail))) } := by
  rw [State.takeDeferred, h]
  exact hold_of_unheld (s := { s with events := { s.events with deferred := none } }) _ hl hs

/-- WEAR is due: the wear count reaches a limit that is set, and was not reported in this wear period (R103). -/
abbrev State.wearDue (s : State) : Prop :=
  s.cell.params.knifeWearLimit ≠ 0 ∧ s.cell.params.knifeWearLimit ≤ bump32 s.gate.wear ∧ s.gate.wearReported = false

theorem wearDue_iff (s : State) : s.wearDue ↔
    ((s.gate.complete s.cell.params.knifeWearLimit).wearReported && !s.gate.wearReported) = true := by
  cases h : s.gate.wearReported <;> simp [State.wearDue, Gate.complete, h]

/-- The state in which the permitted stroke has been counted and the lay's cut has committed (R45, R90, R99). -/
def State.cutCommitted (s : State) (n : Nat) (cut : Lay) (piece : PieceInHand) : State :=
  { s with
    gate := s.gate.complete s.cell.params.knifeWearLimit
    lays := s.lays.set n (some cut)
    seq := { s.seq with inHand := some piece, begun := some .releasing } }

section
variable {s : State} {n : Nat} {l cut : Lay} {piece : PieceInHand}

theorem lays_cutCommitted_absent (hd : s.events.deferred = none) :
    (s.cutCommitted n cut piece).takeDeferred.lays = s.lays.set n (some cut) := by
  rw [takeDeferred_absent (s := s.cutCommitted n cut piece) hd]; rfl

/-- A hold deferred by the stroke holds the lay once its cut has committed (R148). -/
theorem lays_cutCommitted_held {d : DeferredHold} (hl : s.lay? n = some l) (hc : cut.state = .cutting)
    (hd : s.events.deferred = some d) (hn : d.lay = n) :
    (s.cutCommitted n cut piece).takeDeferred.lays = s.lays.set n (some { cut with
      state := .held, heldFrom := some .cutting, cause := some (.event d.kind d.detail), holds := bump16 cut.holds
      holdWanted := false }) := by
  subst hn
  have hcut : (s.cutCommitted d.lay cut piece).lay? d.lay = some cut :=
    (lay?_setLay (s := s) (some cut) (lay?_lt hl) d.lay).trans (if_pos rfl)
  rw [takeDeferred_holds (s := s.cutCommitted d.lay cut piece) hd hcut (by simp [hc])]
  simp only [State.cutCommitted, List.set_set, Lay.held, hc]

end

/-- The permit's DONE: the totals, the commit, the deferred hold, then WEAR (R99). -/
theorem strokeDone_permit {s : State} {p : Permit} {l : Lay} (hp : s.gate.permit = some p) (hl : s.lay? p.lay = some l) :
    strokeDone s = ((s.cutCommitted p.lay l.commitCut (frontPiece p.lay l (s.stepOf l))).takeDeferred,
      if s.wearDue then [.raise .wear s.knifeSubject 0] else []) := by
  have hl' : ({ s with gate := s.gate.complete s.cell.params.knifeWearLimit } : State).lay? p.lay = some l := hl
  simp only [strokeDone, hp, commitCut, hl', wearDue_iff]
  rfl

/-! ### The ends of a STROKE and of the gate's STOP (R99 to R102, R106) -/

theorem strokeOfPermit_iff (s : State) (k : Nat) (tag : Option Nat) :
    s.strokeOfPermit k tag = true ↔ s.working .knife = some k ∧ ∃ p, s.gate.permit = some p ∧ tag = some p.tag := by
  simp [State.strokeOfPermit, Option.any_eq_true]

theorem gateEnds_stop (k n : Nat) (tag : Option Nat) (how : End) (s : State) : gateEnds .stop k n tag how s = (s, []) :=
  if_pos (by simp)

section
variable {s : State} {k n : Nat} {tag : Option Nat} {how : End}

theorem gateEnds_opened (hg : s.gate.state = .opened) (hs : s.strokeOfPermit k tag = true) :
    gateEnds .stroke k n tag how s = strokeEndsOpen n (tag.getD 0) how s := by
  rw [gateEnds, if_neg (by simp), hg, hs]

theorem gateEnds_inStroke (hg : s.gate.state = .stroke) (hs : s.strokeOfPermit k tag = true) :
    gateEnds .stroke k n tag how s = strokeEndsStroke how s := by
  rw [gateEnds, if_neg (by simp), hg, hs]

/-- The end of a STROKE that is not the present permit's (log 46). -/
theorem gateEnds_unpermitted (h : s.gate.state = .closed ∨ s.gate.state = .lockedOut ∨ s.strokeOfPermit k tag = false) :
    gateEnds .stroke k n tag how s = if how.isDone then unbidden (tag.getD 0 + 256) s else (s, []) := by
  rw [gateEnds, if_neg (by simp)]
  rcases h with h | h | h
  · rw [h]
  · rw [h]
  · rw [h]
    cases s.gate.state <;> rfl

theorem strokeEndsOpen_failed (tag : Nat) (h : how.isDone = false) : strokeEndsOpen n tag how s =
    ({ s with gate := { s.gate with state := .closed, permit := none, window := none, timer := none } }, refusalTasks n how) := by
  cases how with
  | done value => simp [End.isDone] at h
  | _ => rfl

end

/-- The ENABLE(off) of a lock-out goes to the working KNIFE slot (R102). -/
theorem lockOutOrder_eq (s : State) : lockOutOrder s =
    (s, ((s.working .knife).map fun k => Task.post k ⟨.enable false, [.cell false]⟩).toList) := rfl

/-- Settles O56: the commit of the permitted stroke's DONE field by field, then every other end by the gate's state. -/
theorem strokeDoneCommitsCut : Obligations.StrokeDoneCommitsCut := by
  refine ⟨?commit, ?others⟩
  case commit =>
    intro s k n i x y g ms limit value p l st hgate hp hn hk hl hcut hi hx hy htarget hst hdeferred htimer u cut
    subst hn
    have hdone : perform (.endFor k (some p.tag) .stroke (.gate p.lay) (.done value)) s = strokeDone s :=
      gateEnds_inStroke hgate ((strokeOfPermit_iff _ _ _).mpr ⟨hk, p, hp, rfl⟩)
    rw [strokeDone_permit hp hl, commitCut_record hi htarget, hst, frontPiece_eq p.lay hx hy htarget] at hdone
    let piece : PieceInHand := ⟨p.lay, st.pieceClass, x - g, y⟩
    have hu : u = (s.cutCommitted p.lay cut piece).takeDeferred := congrArg Prod.fst hdone
    have hugate : u.gate = s.gate.complete s.cell.params.knifeWearLimit := by rw [hu, takeDeferred_gate]; rfl
    have helapsed : min 65535 ((s.gate.timer.map StrokeTimer.elapsed).getD 0) = min 65535 ms := by rw [htimer]; rfl
    refine ⟨?_, ?_, ?_, ?_, ?_, ?_, ?last, ?longest, ?inHand, ?events, ?lays, congrArg Prod.snd hdone⟩
    case inHand => rw [hu, takeDeferred_seq]; cases st <;> rfl
    case events => rw [hu, takeDeferred_events]; rfl
    case lays =>
      rw [hu]
      cases hd : s.events.deferred with
      | none => exact lays_cutCommitted_absent hd
      | some d => exact lays_cutCommitted_held hl hcut hd (hdeferred d hd)
    all_goals rw [hugate]
    case last => exact congrArg some helapsed
    case longest => exact congrArg (fun m => some (max m (s.gate.longestStroke.getD 0))) helapsed
    all_goals rfl
  case others =>
    intro s k n closed lockedOut interrupted ends unbid
    have permits {p : Permit} (hp : s.gate.permit = some p) (hk : s.working .knife = some k) :
        s.strokeOfPermit k (some p.tag) = true := (strokeOfPermit_iff s k _).mpr ⟨hk, p, hp, rfl⟩
    refine ⟨fun p hgate hp hk => ?opened, fun p hgate hp hk => ?stroke, fun tag h => ?unpermitted, fun how hd => ?untagged,
      fun tag how => gateEnds_stop k n tag how s, fun detail => ⟨unbidden_idle detail, fun p => unbidden_permit detail⟩,
      fun hk => (lockOutOrder_eq s).trans (by rw [hk]; rfl), fun hk => (lockOutOrder_eq s).trans (by rw [hk]; rfl)⟩
    case opened =>
      have hends (how : End) : ends p.tag how = strokeEndsOpen n p.tag how s := gateEnds_opened hgate (permits hp hk)
      refine ⟨fun reason hr => ?_, fun how hq => ?_, fun value => hends _⟩
      · exact (hends _).trans ((strokeEndsOpen_failed _ rfl).trans (congrArg _ (refusalTasks_refused n hr)))
      · have hsilent : how = .timedOut ∨ how.isAborted = true := by
          rcases hq with rfl | rfl | rfl | rfl
          · exact .inr rfl
          · exact .inl rfl
          · exact .inr rfl
          · exact .inr rfl
        exact (hends how).trans
          ((strokeEndsOpen_failed _ (isDone_of_silent hsilent)).trans (congrArg _ (refusalTasks_silent n hsilent)))
    case stroke =>
      intro fails
      have hends (how : End) : ends p.tag how = strokeEndsStroke how s := gateEnds_inStroke hgate (permits hp hk)
      have hfails (detail : Nat) : strokeFails detail s = fails detail := strokeFails_permit detail hp
      exact ⟨fun _ => (hends _).trans (hfails 1), (hends _).trans (hfails 2), (hends _).trans (hfails 3), (hends _).trans (hfails 3)⟩
    case unpermitted =>
      have hno : s.gate.state = .closed ∨ s.gate.state = .lockedOut ∨ s.strokeOfPermit k (some tag) = false := by
        refine h.imp_right (Or.imp_right fun h => ?_)
        rw [Bool.eq_false_iff, ne_eq, strokeOfPermit_iff]
        rintro ⟨hk, p, hp, htag⟩
        exact h.elim (· hk) fun ht => ht p hp (Option.some.inj htag).symm
      exact ⟨fun value => gateEnds_unpermitted hno, fun how hd => (gateEnds_unpermitted hno).trans (by rw [hd]; rfl)⟩
    case untagged =>
      have hno : s.strokeOfPermit k none = false := by simp [Bool.eq_false_iff, strokeOfPermit_iff]
      exact (gateEnds_unpermitted (.inr (.inr hno))).trans (by rw [hd]; rfl)

end Sys2Proof.Machine
end

section
/-! The Cut Cycle Sequencer (spec file 05): one equation for each end of a sequencer order, for each phase's next order, for winding back in
STOPPING and for the phase that counts as begun; then the statement put together from them. -/

namespace Sys2Proof.Machine

/-! ### A sequencer order that is not done (R88, R94, R106) -/

theorem sequenceEnds_refused (o : OrderKind) (n : Nat) (halted : Bool) (s : State) {reason : Reason} (h : reason ≠ .aborted) :
    sequenceEnds o n halted (.refused reason) s = (s, [.raise .orderRefused (.lay n) (reasonIndex reason)]) := by
  rw [sequenceEnds, isAborted_refused h, refusalTasks_refused n h]; rfl

theorem sequenceEnds_timedOut (o : OrderKind) (n : Nat) (halted : Bool) (s : State) :
    sequenceEnds o n halted .timedOut s = (s, []) := rfl

theorem sequenceEnds_aborted (o : OrderKind) (n : Nat) (halted : Bool) (s : State) {how : End} (h : how.isAborted = true) :
    sequenceEnds o n halted how s = (s, turnAborted o n halted s) := by
  rw [sequenceEnds, isDone_of_isAborted h, h]; rfl

/-- The clamp's and the gauge's records after a sequencer order that was not done (R88). -/
def Sequencer.unknownAfter (o : OrderKind) (q : Sequencer) : Sequencer :=
  match o with
  | .clamp _ | .release => { q with clamp := .unknown }
  | .move _ | .pushOut => { q with gauge := .unknown }
  | _ => q

theorem orderEnded_failed (s : State) (n k : Nat) (tag : Option Nat) (o : OrderKind) (halted : Bool) {how : End}
    (h : how.isDone = false) : orderEnded k tag ⟨o, [.sequence n halted]⟩ how s =
      ({ s with seq := s.seq.unknownAfter o }, [.endFor k tag o (.sequence n halted) how]) := by
  have hrecords : s.recordsUnknown k ⟨o, [.sequence n halted]⟩ = { s with seq := s.seq.unknownAfter o } := by
    cases o with
    | clamp _ | release | move _ | pushOut => simp [State.recordsUnknown, Sequencer.unknownAfter, State.setClamp, State.setGauge]
    | _ => rfl
  rw [orderEnded, h, ← hrecords]; rfl

/-! ### A sequencer order that is done (R16, R46 to R48, R83, R88 to R92, R131) -/

theorem lays_set_self {s : State} {n : Nat} {l : Lay} (hl : s.lay? n = some l) : s.lays.set n (some l) = s.lays :=
  congrArg State.lays (setLay_self hl)

/-- A lay cuts, be it HELD or not (R16). -/
theorem eff_cutting {l : Lay} (h : l.state = .cutting ∨ (l.state = .held ∧ l.heldFrom = some .cutting)) : l.eff = .cutting := by
  rcases h with h | ⟨h, hf⟩
  · exact ((cutting_iff l).mp h).1
  · rw [eff_of_held h, hf]; rfl

theorem advancePhase_stands {l : Lay} {old : Phase} (new : Phase) (halted : Bool) (he : l.eff = .cutting) (hp : l.phase = some old) :
    l.advancePhase old new halted = { l with phase := if halted = true then some old else some new } := by
  cases halted with
  | true => simp [Lay.advancePhase, ← hp]
  | false => simp [Lay.advancePhase, he, hp]

theorem advancePhase_elsewhere {l : Lay} {old : Phase} (new : Phase) (halted : Bool) (h : l.eff ≠ .cutting ∨ l.phase ≠ some old) :
    l.advancePhase old new halted = l := if_neg fun ⟨he, hp, _⟩ => h.elim (· he) (· hp)

/-- The record of a lay whose RELEASING has ended: at its step start, or in PUSHING where it drains (R90, R92). -/
def Lay.leaveReleasing (l : Lay) : Lay :=
  if l.eff = .draining then { l with phase := some .pushing, target := some 0 } else { l with phase := none, target := none }

theorem leaveReleasing_cutting {l : Lay} (h : l.eff = .cutting) : l.leaveReleasing = { l with phase := none, target := none } :=
  if_neg (by simp [h])

theorem leaveReleasing_draining {l : Lay} (h : l.eff = .draining) :
    l.leaveReleasing = { l with phase := some .pushing, target := some 0 } := if_pos h

theorem rotate_eq (q : Nat) (l : Lay) : l.rotate q =
    { l with
      turns := (l.turns + q) % 4
      x := if q % 2 = 1 then l.y else l.x
      y := if q % 2 = 1 then l.x else l.y } := by
  unfold Lay.rotate; split <;> rfl

section
variable {s : State} {n : Nat} {l : Lay} (hl : s.lay? n = some l)
include hl

theorem sequenceDone_move (q : Nat) (halted : Bool) : sequenceDone (.move q) n halted s =
    ({ s with
      seq := { s.seq with gauge := .known q true }
      lays := s.lays.set n (some (l.advancePhase .positioning .clamping halted)) }, []) :=
  congrArg (·, []) (updateLay_some (s := s.setGauge (.known q true)) hl _)

theorem sequenceDone_clamp (level : Nat) (halted : Bool) : sequenceDone (.clamp level) n halted s =
    ({ s with
      seq := { s.seq with clamp := .clamped n level }
      lays := s.lays.set n (some (l.advancePhase .clamping .stroking halted)) }, []) :=
  congrArg (·, []) (updateLay_some (s := s.setClamp (.clamped n level)) hl _)

/-- A gauge DONE that finds no POSITIONING sets the gauge's record alone. -/
theorem sequenceDone_move_elsewhere (q : Nat) (halted : Bool) (h : l.eff ≠ .cutting ∨ l.phase ≠ some .positioning) :
    sequenceDone (.move q) n halted s = ({ s with seq := { s.seq with gauge := .known q true } }, []) := by
  rw [sequenceDone_move hl, advancePhase_elsewhere _ _ h, lays_set_self hl]

/-- A clamp DONE that finds no CLAMPING sets the clamp's record alone. -/
theorem sequenceDone_clamp_elsewhere (level : Nat) (halted : Bool) (h : l.eff ≠ .cutting ∨ l.phase ≠ some .clamping) :
    sequenceDone (.clamp level) n halted s = ({ s with seq := { s.seq with clamp := .clamped n level } }, []) := by
  rw [sequenceDone_clamp hl, advancePhase_elsewhere _ _ h, lays_set_self hl]

theorem releasingEnds_empty (h : s.seq.inHand = none) :
    releasingEnds n s = { s with lays := s.lays.set n (some l.leaveReleasing) } := by
  rw [releasingEnds, State.handOverInHand, h]
  exact updateLay_some hl _

/-- The piece in hand is handed over where RELEASING ends (R90). -/
theorem releasingEnds_hands {q : PieceInHand} (h : s.seq.inHand = some q) : releasingEnds n s =
    { s.handOver q.lay q.cls q.depth q.width .cut with
      seq := { s.seq with inHand := none }
      lays := s.lays.set n (some l.leaveReleasing) } := by
  rw [releasingEnds, State.handOverInHand, h]
  exact updateLay_some (s := { s.handOver q.lay q.cls q.depth q.width .cut with seq := { s.seq with inHand := none } }) hl _

theorem sequenceDone_release_elsewhere (halted : Bool) (h : l.phase ≠ some .releasing) :
    sequenceDone .release n halted s = ({ s with seq := { s.seq with clamp := .released } }, []) := by
  rw [sequenceDone, releaseDone, hl, if_neg (by simpa using h)]; rfl

section
variable (halted : Bool) (hp : l.phase = some .releasing)
include hp

theorem sequenceDone_release : sequenceDone .release n halted s = (releasingEnds n (s.setClamp .released), []) := by
  rw [sequenceDone, releaseDone, hl, if_pos (by simpa using hp)]

theorem sequenceDone_release_empty (h : s.seq.inHand = none) : sequenceDone .release n halted s =
    ({ s with seq := { s.seq with clamp := .released }, lays := s.lays.set n (some l.leaveReleasing) }, []) := by
  rw [sequenceDone_release hl halted hp, releasingEnds_empty (s := s.setClamp .released) hl h]; rfl

theorem sequenceDone_release_hands {q : PieceInHand} (h : s.seq.inHand = some q) : sequenceDone .release n halted s =
    ({ s.handOver q.lay q.cls q.depth q.width .cut with
      seq := { s.seq with clamp := .released, inHand := none }
      lays := s.lays.set n (some l.leaveReleasing) }, []) := by
  rw [sequenceDone_release hl halted hp, releasingEnds_hands (s := s.setClamp .released) hl h]; rfl

end

/-- A turn done in TURNING commits the step (R46, R47). -/
theorem turnDone_commits (f : Lay → Lay) {i : Nat} (he : l.eff = .cutting) (hp : l.phase = some .turning)
    (hi : (f l).step = some i) : turnDone n f s =
      s.setLay n (some { f l with phase := none, target := none, step := some (i + 1) }) := by
  have hstep : (f l).toStepStart.step = some i := hi
  rw [turnDone, updateLay_some hl, if_pos ⟨he, hp⟩, advance_eq hstep]; rfl

/-- For a lay that drains meanwhile a turn done changes the geometry alone (log 17). -/
theorem turnDone_drained (f : Lay → Lay) (he : l.eff ≠ .cutting) : turnDone n f s = s.setLay n (some (f l)) := by
  rw [turnDone, updateLay_some hl, if_neg fun h => he h.1]

theorem turnAborted_eq (o : OrderKind) (halted : Bool) {i : Nat} (hi : l.step = some i) : turnAborted o n halted s =
    match o with
    | .rotate _ | .invert =>
      if halted = true ∧ l.eff = .cutting ∧ l.phase = some .turning then [.raise .interrupted (.lay n) i] else []
    | _ => [] := by
  cases o with
  | rotate _ | invert => simp [turnAborted, hl, stepDetail_eq hl hi]
  | _ => rfl

theorem turnAborted_drained (o : OrderKind) (halted : Bool) (he : l.eff ≠ .cutting) : turnAborted o n halted s = [] := by
  cases o with
  | rotate _ | invert => simp [turnAborted, hl, he]
  | _ => rfl

end

/-- The TABLE is released and its lay FINISHING, its remainder not yet handed over (R83, R92). -/
def State.pushedOut (s : State) (n : Nat) (l : Lay) : State :=
  { s with
    zones := { s.zones with table := { s.zones.table with occupant := none } }
    seq := { s.seq with gauge := .known s.cell.params.gaugeMax true }
    lays := s.lays.set n (some { l with
      state := if l.state = .held then .held else .finishing
      heldFrom := if l.state = .held then some .finishing else l.heldFrom
      zone := none, phase := none, target := none }) }

theorem pushOutDone_eq {s : State} {n x y : Nat} {l : Lay} (hl : s.lay? n = some l) (hx : l.x = some x) (hy : l.y = some y) :
    pushOutDone n s = ((s.pushedOut n l).handOver n (s.remainderClass l) x y .remainder, [.finishTest n]) := by
  have hrecord : (Lay.setEff .finishing { l with zone := none }).toStepStart = { l with
      state := if l.state = .held then .held else .finishing
      heldFrom := if l.state = .held then some .finishing else l.heldFrom
      zone := none, phase := none, target := none } := by
    unfold Lay.setEff
    split <;> simp_all [Lay.toStepStart]
  have hleft := vacate_updateLay (s := s.setGauge (.known s.cell.params.gaugeMax true)) hl
    (fun l => (l.setEff .finishing).toStepStart) .table
  simp only [hrecord] at hleft
  simp only [pushOutDone, hl, hx, hy, Option.getD_some]
  rw [hleft]
  rfl

theorem remainderClass_abandoned {l : Lay} (s : State) (h : l.abandoned = true) : s.remainderClass l = .waste := if_pos h

/-- The class END gives a remainder, by the lay's zero mark where it says AUTO (R48). -/
def EndClass.remainder (zero : Bool) : EndClass → PieceClass
  | .block => .block
  | .waste => .waste
  | .auto => if zero = true then .block else .waste

theorem remainderClass_end {s : State} {l : Lay} {c : EndClass} (h : l.abandoned = false) (hst : s.stepOf l = some (.endProgram c)) :
    s.remainderClass l = c.remainder l.zero := by
  rw [State.remainderClass, h, hst]
  cases c <;> rfl

/-! ### The next order of a phase (R87 to R92, Figure 25) -/

/-- The sequencer has begun the phase the lay is in (R87). -/
def State.beginning (s : State) (l : Lay) : State := { s with seq := { s.seq with begun := l.phase } }

theorem beginning_eq {l : Lay} {p : Phase} (s : State) (hp : l.phase = some p) : s.markBegun p = s.beginning l := by
  rw [State.beginning, hp]; rfl

theorem beginning_self {s : State} {l : Lay} (h : s.seq.begun = l.phase) : s.beginning l = s := by
  rw [State.beginning, ← h]

theorem clampDown_iff (s : State) : s.clampDown = true ↔ s.seq.clamp ≠ .released := by simp [State.clampDown]

theorem sequence_eq {s : State} {kind : StationKind} {k : Nat} (hk : s.working kind = some k) (o : OrderKind) (n : Nat) :
    s.sequence kind o n = (s, [.post k ⟨o, [.sequence n false]⟩]) := by
  rw [State.sequence, State.postTo, hk]; rfl

/-- What the start-of-cut checks say of a cut whose gauge position is inside the lay (R41 to R43). -/
theorem checkCut_inside {st : Step} {x q : Nat} (p : CellParams)
    (h : (∃ w, (st = .trim w ∨ st = .strip w) ∧ w < x ∧ q = x - w) ∨ (∃ cls, st = .cutAt q cls ∧ q < x)) :
    checkCut p x st = if gaugeOk p q then .cut q else .gaugeLimit := by
  rcases h with ⟨w, hst, hw, rfl⟩ | ⟨cls, rfl, hq⟩
  · exact (checkCut_width hst p x).trans (checkWidth_inside hw)
  · exact checkPosition_inside hq

section
variable {s : State} {n c g : Nat} {l : Lay}

section
variable {st : Step} {x i : Nat} (hl : s.lay? n = some l) (hst : s.stepOf l = some st) (hx : l.x = some x)
include hl hst hx

section
variable (hi : l.step = some i)
include hi

theorem beginPositioning_shortCut (h : checkCut s.cell.params x st = .shortCut) : beginPositioning n l s =
    (s.setLay n (some l.toStepStart), [.raise .shortCut (.lay n) i, .giveUp n]) := by
  simp only [beginPositioning, hst, hx, Option.map_some, Option.getD_some, h, checkFails_eq hl hi]

theorem beginPositioning_gaugeLimit (h : checkCut s.cell.params x st = .gaugeLimit) : beginPositioning n l s =
    (s.setLay n (some l.toStepStart), [.raise .gaugeLimit (.lay n) i, .giveUp n]) := by
  simp only [beginPositioning, hst, hx, Option.map_some, Option.getD_some, h, checkFails_eq hl hi]

end

variable {q : Nat} (h : checkCut s.cell.params x st = .cut q)
include h

theorem beginPositioning_down (hc : s.working .clamp = some c) (hd : s.seq.clamp ≠ .released) : beginPositioning n l s =
    (s.setLay n (some { l with target := some q }), [.post c ⟨.release, [.sequence n false]⟩]) := by
  simp only [beginPositioning, hst, hx, Option.map_some, Option.getD_some, h, if_pos ((clampDown_iff s).mpr hd), updateLay_some hl]
  exact sequence_eq (s := s.setLay n _) hc _ n

theorem beginPositioning_up (hg : s.working .gauge = some g) (hd : ¬s.seq.clamp ≠ .released) : beginPositioning n l s =
    ((s.setLay n (some { l with target := some q })).setGauge (.known q false), [.post g ⟨.move q, [.sequence n false]⟩]) := by
  simp only [beginPositioning, hst, hx, Option.map_some, Option.getD_some, h, if_neg (mt (clampDown_iff s).mp hd), updateLay_some hl]
  exact sequence_eq (s := (s.setLay n _).setGauge _) hg _ n

end

theorem beginReleasing_down (n : Nat) (hc : s.working .clamp = some c) (hd : s.seq.clamp ≠ .released) :
    beginReleasing n s = (s, [.post c ⟨.release, [.sequence n false]⟩]) := by
  rw [beginReleasing, if_pos ((clampDown_iff s).mpr hd), sequence_eq hc]

theorem beginReleasing_up (n : Nat) (hd : ¬s.seq.clamp ≠ .released) : beginReleasing n s = (releasingEnds n s, []) :=
  if_neg (mt (clampDown_iff s).mp hd)

theorem beginPushing_down (n : Nat) (hc : s.working .clamp = some c) (hd : s.seq.clamp ≠ .released) :
    beginPushing n s = (s, [.post c ⟨.release, [.sequence n false]⟩]) := by
  rw [beginPushing, if_pos ((clampDown_iff s).mpr hd), sequence_eq hc]

theorem beginPushing_up (n : Nat) (hg : s.working .gauge = some g) (hd : ¬s.seq.clamp ≠ .released) :
    beginPushing n s = (s.setGauge .unknown, [.post g ⟨.pushOut, [.sequence n false]⟩]) := by
  rw [beginPushing, if_neg (mt (clampDown_iff s).mp hd)]
  exact sequence_eq (s := s.setGauge .unknown) hg _ n

/-- The repeated turn check of the step the lay stands at (R46, R91). -/
def State.turnFits (s : State) (l : Lay) : Bool :=
  match s.stepOf l with
  | some (.turn q) => turnOk s.cell.params (l.x.getD 0) (l.y.getD 0) q
  | _ => true

theorem turnFits_turn {q x y : Nat} (hst : s.stepOf l = some (.turn q)) (hx : l.x = some x) (hy : l.y = some y) :
    s.turnFits l = true ↔ q = 2 ∨ x ≤ s.cell.params.tableWidth ∧ y ≤ s.cell.params.gaugeMax := by
  simp only [State.turnFits, hst, hx, hy, Option.getD_some, turnOk_iff]

theorem turnFits_invert (hst : s.stepOf l = some .invert) : s.turnFits l = true := by simp only [State.turnFits, hst]

theorem beginTurning_eq (n : Nat) (l : Lay) (s : State) : beginTurning n l s =
    if s.turnFits l = false then checkFails n .sizeLimit s
    else if s.clampDown then s.sequence .clamp .release n
    else if s.seq.gauge ≠ .known s.cell.params.gaugeMax true then s.sequenceMove s.cell.params.gaugeMax n
    else if (s.working .turn).isNone then (s, [.raise .orderRefused (.lay n) (reasonIndex .cannot), .giveUp n])
    else s.sequence .turn (turnOrder (s.stepOf l)) n := rfl

theorem beginTurning_unfit {i : Nat} (hl : s.lay? n = some l) (hi : l.step = some i) (h : ¬s.turnFits l = true) : beginTurning n l s =
    (s.setLay n (some l.toStepStart), [.raise .sizeLimit (.lay n) i, .giveUp n]) := by
  rw [beginTurning_eq, if_pos (Bool.eq_false_iff.mpr h), checkFails_eq hl hi]

section
variable (n : Nat) (hf : s.turnFits l = true)
include hf

theorem beginTurning_down (hc : s.working .clamp = some c) (hd : s.seq.clamp ≠ .released) :
    beginTurning n l s = (s, [.post c ⟨.release, [.sequence n false]⟩]) := by
  rw [beginTurning_eq, if_neg (by simp [hf]), if_pos ((clampDown_iff s).mpr hd), sequence_eq hc]

variable (hd : ¬s.seq.clamp ≠ .released)
include hd

theorem beginTurning_gauge (hg : s.working .gauge = some g) (hm : ¬s.seq.gauge = .known s.cell.params.gaugeMax true) :
    beginTurning n l s = (s.setGauge (.known s.cell.params.gaugeMax false),
      [.post g ⟨.move s.cell.params.gaugeMax, [.sequence n false]⟩]) := by
  rw [beginTurning_eq, if_neg (by simp [hf]), if_neg (mt (clampDown_iff s).mp hd), if_pos hm]
  exact sequence_eq (s := s.setGauge (.known s.cell.params.gaugeMax false)) hg _ n

variable (hm : s.seq.gauge = .known s.cell.params.gaugeMax true)
include hm

/-- Without a TURN slot the turn is given up (R91). -/
theorem beginTurning_givesUp (ht : s.working .turn = none) :
    beginTurning n l s = (s, [.raise .orderRefused (.lay n) (reasonIndex .cannot), .giveUp n]) := by
  rw [beginTurning_eq, if_neg (by simp [hf]), if_neg (mt (clampDown_iff s).mp hd), if_neg (fun h => h hm), if_pos (by simp [ht])]

theorem beginTurning_turns {k : Nat} (ht : s.working .turn = some k) :
    beginTurning n l s = (s, [.post k ⟨turnOrder (s.stepOf l), [.sequence n false]⟩]) := by
  rw [beginTurning_eq, if_neg (by simp [hf]), if_neg (mt (clampDown_iff s).mp hd), if_neg (fun h => h hm), if_neg (by simp [ht]),
    sequence_eq ht]

end

/-! ### Winding back in STOPPING (R95) -/

theorem windBack_down (hl : s.lay? n = some l) (hc : s.working .clamp = some c) (hd : s.seq.clamp ≠ .released) : windBack n s =
    ({ s with
      seq := { s.seq with begun := some .releasing }
      lays := s.lays.set n (some { l with phase := some .releasing }) }, [.post c ⟨.release, [.sequence n false]⟩]) := by
  have hback := updateLay_some (s := s.markBegun .releasing) hl fun l => { l with phase := some .releasing }
  rw [windBack, if_pos ((clampDown_iff s).mpr hd), hback]
  exact sequence_eq (s := (s.markBegun .releasing).setLay n _) hc _ n

theorem windBack_up (hl : s.lay? n = some l) (hd : ¬s.seq.clamp ≠ .released) :
    windBack n s = (s.setLay n (some l.toStepStart), []) := by
  rw [windBack, if_neg (mt (clampDown_iff s).mp hd), updateLay_some hl]

/-- A lay's cut in the phase has not reached its stroke: it is wound back in STOPPING (R95). -/
def State.windsBack (s : State) (n : Nat) (l : Lay) : Prop :=
  l.phase = some .positioning ∨ l.phase = some .clamping ∨ (l.phase = some .stroking ∧ s.permitted n = false)

/-! ### Which phase goes on (R87, R95, log 18) -/

/-- RELEASING, TURNING and PUSHING go on in STOPPING where they have been begun. -/
def Phase.lasts (p : Phase) : Prop := p = .releasing ∨ p = .turning ∨ p = .pushing

/-- The sequencer may act for the lay: it cuts or drains and no sequencer order of it is outstanding (R87). -/
def State.sequencerFree (s : State) (n : Nat) (l : Lay) : Prop :=
  (l.state = .cutting ∨ l.state = .draining) ∧ s.sequencing n = false

theorem stoppingPhase_lasting {p : Phase} (n : Nat) (l : Lay) (s : State) (h : p.lasts) :
    stoppingPhase n l p s = if s.seq.begun = some p then beginPhase n l p s else none := by
  rcases h with rfl | rfl | rfl <;> rfl

section
variable (ho : s.zones.table.occupant = some n) (hl : s.lay? n = some l) (hc : s.working .clamp = some c)
  (hg : s.working .gauge = some g)
include ho hl

section
include hc hg

theorem phaseRule_free (h : s.sequencerFree n l) : phaseRule s = l.phase.bind fun p =>
    if s.cell.state = .running then beginPhase n l p (s.markBegun p)
    else if s.cell.state = .stopping then stoppingPhase n l p s
    else none := by
  simp only [phaseRule, ho, hl]
  exact if_pos ⟨h.1, h.2, by simp [hg], by simp [hc]⟩

section
variable {p : Phase} (h : s.sequencerFree n l) (hp : l.phase = some p)
include h hp

theorem phaseRule_running (hr : s.cell.state = .running) : phaseRule s = beginPhase n l p (s.beginning l) := by
  rw [phaseRule_free ho hl hc hg h, hp, Option.bind_some, if_pos hr, beginning_eq s hp]

theorem phaseRule_stopping (hs : s.cell.state = .stopping) : phaseRule s = stoppingPhase n l p s := by
  rw [phaseRule_free ho hl hc hg h, hp, Option.bind_some, if_neg (by simp [hs]), if_pos hs]

/-- A lasting phase goes on in RUNNING, and in STOPPING where it has been begun (log 18). -/
theorem phaseRule_goesOn (hlast : p.lasts) (hcell : s.cell.state = .running ∨ (s.cell.state = .stopping ∧ s.seq.begun = l.phase)) :
    phaseRule s = beginPhase n l p (s.beginning l) := by
  rcases hcell with hr | ⟨hs, hb⟩
  · exact phaseRule_running ho hl hc hg h hp hr
  · rw [phaseRule_stopping ho hl hc hg h hp hs, stoppingPhase_lasting n l s hlast, if_pos (hb.trans hp), beginning_self hb]

theorem phaseRule_waits (hlast : p.lasts) (hs : s.cell.state = .stopping) (hb : s.seq.begun ≠ l.phase) : phaseRule s = none := by
  rw [phaseRule_stopping ho hl hc hg h hp hs, stoppingPhase_lasting n l s hlast, if_neg (fun hb' => hb (hb'.trans hp.symm))]

end

theorem phaseRule_windsBack (h : s.sequencerFree n l) (hs : s.cell.state = .stopping) (hw : s.windsBack n l) :
    phaseRule s = some (windBack n s) := by
  rcases hw with hp | hp | ⟨hp, hn⟩
  · exact phaseRule_stopping ho hl hc hg h hp hs
  · exact phaseRule_stopping ho hl hc hg h hp hs
  · exact (phaseRule_stopping ho hl hc hg h hp hs).trans (if_neg (by simp [hn]))

theorem phaseRule_permitted (h : s.sequencerFree n l) (hs : s.cell.state = .stopping) (hp : l.phase = some .stroking)
    (hn : s.permitted n = true) : phaseRule s = none :=
  (phaseRule_stopping ho hl hc hg h hp hs).trans (if_pos hn)

end

theorem phaseRule_idle (h : ¬s.sequencerFree n l ∨ l.phase = none ∨ (s.cell.state ≠ .running ∧ s.cell.state ≠ .stopping)) :
    phaseRule s = none := by
  simp only [phaseRule, ho, hl]
  split
  · rename_i hfree
    rcases h with h | h | ⟨hr, hs⟩
    · exact absurd ⟨hfree.1, hfree.2.1⟩ h
    · rw [h, Option.bind_none]
    · simp [hr, hs]
  · rfl

end

end

/-! ### The phase that counts as begun (R19, R87, log 18) -/

theorem begunStands_iff (s : State) : s.begunStands = true ↔ ∃ n l, s.zones.table.occupant = some n ∧ s.lay? n = some l ∧
    l.phase = s.seq.begun ∧ (l.state ≠ .held ∨ s.sequencing n = true) := by
  simp [State.begunStands, Option.any_eq_true]

theorem begunRule_ends {s : State} (hb : s.seq.begun.isSome = true) (h : ¬s.begunStands = true) :
    begunRule s = some ({ s with seq := { s.seq with begun := none } }, []) := if_pos ⟨hb, Bool.eq_false_iff.mpr h⟩

theorem begunRule_stands {s : State} (h : s.seq.begun = none ∨ s.begunStands = true) : begunRule s = none :=
  if_neg fun ⟨hb, hs⟩ => h.elim (fun h => by simp [h] at hb) (fun h => by simp [h] at hs)

/-! ### The sequencer's orders as a whole -/

/-- Settles O60: each order's end for a lay that cuts and for one that drains, PUSH_OUT, the records after an order not done, then the
rules that post the orders. -/
theorem sequencerOrderEnds : Obligations.SequencerOrderEnds := by
  refine ⟨?cutting, ?draining, ?pushOut, fun s n k tag o halted how hd => ?failed, ?phases, fun s => ?begun⟩
  case cutting =>
    intro s n k i tag l value halted hl hstate hi ends
    have he : l.eff = .cutting := eff_cutting hstate
    refine ⟨fun q hp => ?_, fun level hp => ?_, sequenceDone_release_elsewhere hl halted, fun hp hh => ?_, fun p hp hh => ?_,
      fun q hp => ?_, fun hp => ?_, fun q hp => sequenceDone_move_elsewhere hl q halted (.inr hp),
      fun level hp => sequenceDone_clamp_elsewhere hl level halted (.inr hp), fun o reason => sequenceEnds_refused o n halted s,
      fun o => sequenceEnds_timedOut o n halted s, fun o how hq => ?_⟩
    · exact (sequenceDone_move hl q halted).trans (by rw [advancePhase_stands _ _ he hp])
    · exact (sequenceDone_clamp hl level halted).trans (by rw [advancePhase_stands _ _ he hp])
    · exact (sequenceDone_release_empty hl halted hp hh).trans (by rw [leaveReleasing_cutting he])
    · exact (sequenceDone_release_hands hl halted hp hh).trans (by rw [leaveReleasing_cutting he])
    · refine (congrArg (·, []) (turnDone_commits hl (Lay.rotate q) he hp (i := i) ?_)).trans ?_
      · rw [rotate_eq]; exact hi
      · rw [rotate_eq]; rfl
    · exact congrArg (·, []) (turnDone_commits hl Lay.invertFace he hp (i := i) hi)
    · refine (sequenceEnds_aborted o n halted s ((isAborted_iff how).mpr hq)).trans ?_
      rw [turnAborted_eq hl o halted hi]
      cases o <;> simp [he]
  case draining =>
    intro s n k tag l value halted hl he endsAs ends pushes
    have hcut : l.eff ≠ .cutting := by simp [he]
    refine ⟨fun hp hh => ?_, fun p hp hh => ?_, sequenceDone_release_elsewhere hl halted,
      fun q => sequenceDone_move_elsewhere hl q halted (.inl hcut), fun level => sequenceDone_clamp_elsewhere hl level halted (.inl hcut),
      fun q => ?_, ?_, fun o reason => sequenceEnds_refused o n halted s, fun o how hq => ?_⟩
    · exact (sequenceDone_release_empty hl halted hp hh).trans (by rw [leaveReleasing_draining he])
    · exact (sequenceDone_release_hands hl halted hp hh).trans (by rw [leaveReleasing_draining he])
    · exact (congrArg (·, []) (turnDone_drained hl (Lay.rotate q) hcut)).trans (by rw [rotate_eq]; rfl)
    · exact congrArg (·, []) (turnDone_drained hl Lay.invertFace hcut)
    · rcases hq with rfl | hq
      · exact sequenceEnds_timedOut o n halted s
      · refine (sequenceEnds_aborted o n halted s ((isAborted_iff how).mpr hq)).trans ?_
        rw [turnAborted_drained hl o halted hcut]
  case pushOut =>
    intro s n k x y tag l value halted hl hx hy
    exact ⟨_, pushOutDone_eq hl hx hy, rfl, rfl, rfl, _, rfl, rfl, rfl, rfl, rfl, rfl, fun h => remainderClass_abandoned s h,
      fun c h hst => (remainderClass_end h hst).trans (by cases c <;> rfl)⟩
  case failed =>
    refine (orderEnded_failed s n k tag o halted hd).trans ?_
    cases o <;> rfl
  case begun =>
    intro stands
    exact ⟨fun hb h => begunRule_ends hb (mt (begunStands_iff s).mp h),
      fun h => begunRule_stands (h.imp_right (begunStands_iff s).mpr)⟩
  case phases =>
    intro s n c g l ho hl hc hg p may goes cutGoes down posts moved b atStep passes
    have runs {q : Phase} (h : cutGoes) (hp : l.phase = some q) : phaseRule s = beginPhase n l q b :=
      phaseRule_running ho hl hc hg h.1 hp h.2
    have lasts {q : Phase} (h : goes) (hq : q.lasts) (hp : l.phase = some q) : phaseRule s = beginPhase n l q b :=
      phaseRule_goesOn ho hl hc hg h.1 hp hq h.2
    refine ⟨phaseRule_idle ho hl, fun st x i h hp hst hx hi => ?positioning, fun level h hp hpress => ?clamping,
      fun h hp => runs h hp, fun h hp => ?releasing, fun q x y i h hp hst hx hy hi => ?rotation, fun h hp hst => ?inversion,
      fun h hp => ?pushing, fun h hs hw => ?windsBack, fun h hs hp hn => phaseRule_permitted ho hl hc hg h hs hp hn,
      fun h hs hp hb => ?waits⟩
    case positioning =>
      intro fails v
      have hbegin : phaseRule s = some (beginPositioning n l b) := runs h hp
      refine ⟨fun w hw hxw => ?_, fun q hq => ?_⟩
      · exact hbegin.trans (congrArg some (beginPositioning_shortCut (s := b) hl hst hx hi
          ((checkCut_width hw p x).trans (checkWidth_shortCut hxw))))
      · have hcheck := checkCut_inside p hq
        have hcut (hok : passes q) : checkCut p x st = .cut q := hcheck.trans (if_pos ((gaugeOk_iff p q).mpr hok))
        exact ⟨fun hno => hbegin.trans (congrArg some (beginPositioning_gaugeLimit (s := b) hl hst hx hi
            (hcheck.trans (if_neg (mt (gaugeOk_iff p q).mp hno))))),
          fun hok hd => hbegin.trans (congrArg some (beginPositioning_down (s := b) hl hst hx (hcut hok) hc hd)),
          fun hok hd => hbegin.trans (congrArg some (beginPositioning_up (s := b) hl hst hx (hcut hok) hg hd))⟩
    case clamping =>
      refine (runs h hp).trans (congrArg some ?_)
      rw [hpress]
      exact sequence_eq (s := b) hc _ n
    case releasing =>
      have hbegin : phaseRule s = some (beginReleasing n b) := lasts h (.inl rfl) hp
      have hup (hd : ¬down) : phaseRule s = some (releasingEnds n b, []) :=
        hbegin.trans (congrArg some (beginReleasing_up (s := b) n hd))
      have hcut (hs : l.state = .cutting) : l.eff = .cutting := eff_cutting (.inl hs)
      have hdrain (hs : l.state = .draining) : l.eff = .draining := (eff_of_unheld (by simp [hs])).trans hs
      refine ⟨fun hd => hbegin.trans (congrArg some (beginReleasing_down (s := b) n hc hd)), fun hd hh hs => ?_, fun hd hh hs => ?_,
        fun q hd hh hs => ?_, fun q hd hh hs => ?_⟩
      · rw [hup hd, releasingEnds_empty (s := b) hl hh, leaveReleasing_cutting (hcut hs)]
      · rw [hup hd, releasingEnds_empty (s := b) hl hh, leaveReleasing_draining (hdrain hs)]
      · rw [hup hd, releasingEnds_hands (s := b) hl hh, leaveReleasing_cutting (hcut hs)]; rfl
      · rw [hup hd, releasingEnds_hands (s := b) hl hh, leaveReleasing_draining (hdrain hs)]; rfl
    case rotation =>
      intro fits clear
      have hbegin : phaseRule s = some (beginTurning n l b) := lasts h (.inr (.inl rfl)) hp
      have hfits : b.turnFits l = true ↔ fits := turnFits_turn (s := b) hst hx hy
      have horder : turnOrder (b.stepOf l) = .rotate q := congrArg turnOrder hst
      refine ⟨fun hf => hbegin.trans (congrArg some (beginTurning_unfit (s := b) hl hi (mt hfits.mp hf))),
        fun hf hd => hbegin.trans (congrArg some (beginTurning_down (s := b) n (hfits.mpr hf) hc hd)),
        fun hf hd hm => hbegin.trans (congrArg some (beginTurning_gauge (s := b) n (hfits.mpr hf) hd hg hm)),
        fun hf hd hm ht => hbegin.trans (congrArg some (beginTurning_givesUp (s := b) n (hfits.mpr hf) hd hm ht)),
        fun k hf hd hm ht => hbegin.trans (congrArg some ?_)⟩
      rw [beginTurning_turns (s := b) n (hfits.mpr hf) hd hm ht, horder]
    case inversion =>
      intro clear
      have hbegin : phaseRule s = some (beginTurning n l b) := lasts h (.inr (.inl rfl)) hp
      have hfits : b.turnFits l = true := turnFits_invert (s := b) hst
      have horder : turnOrder (b.stepOf l) = .invert := congrArg turnOrder hst
      refine ⟨fun hd => hbegin.trans (congrArg some (beginTurning_down (s := b) n hfits hc hd)),
        fun hd hm => hbegin.trans (congrArg some (beginTurning_gauge (s := b) n hfits hd hg hm)),
        fun hd hm ht => hbegin.trans (congrArg some (beginTurning_givesUp (s := b) n hfits hd hm ht)),
        fun k hd hm ht => hbegin.trans (congrArg some ?_)⟩
      rw [beginTurning_turns (s := b) n hfits hd hm ht, horder]
    case pushing =>
      have hbegin : phaseRule s = some (beginPushing n b) := lasts h (.inr (.inr rfl)) hp
      exact ⟨fun hd => hbegin.trans (congrArg some (beginPushing_down (s := b) n hc hd)),
        fun hd => hbegin.trans (congrArg some (beginPushing_up (s := b) n hg hd))⟩
    case windsBack =>
      have hback : phaseRule s = some (windBack n s) := phaseRule_windsBack ho hl hc hg h hs hw
      exact ⟨fun hd => hback.trans (congrArg some (windBack_down hl hc hd)), fun hd => hback.trans (congrArg some (windBack_up hl hd))⟩
    case waits =>
      rcases hp with hp | hp | hp
      · exact phaseRule_waits ho hl hc hg h hp (.inl rfl) hs hb
      · exact phaseRule_waits ho hl hc hg h hp (.inr (.inl rfl)) hs hb
      · exact phaseRule_waits ho hl hc hg h hp (.inr (.inr rfl)) hs hb

end Sys2Proof.Machine
end

section
/-! Station slots under their timers, their stations' reports and the ring (spec file 06): one equation for each case of what a slot does
with each; then the statements put together from them. -/

namespace Sys2Proof.Machine

/-! ### The order in flight (R113 to R116, R181) -/

section
variable {s : State} {k : Nat} {i : InFlight}

/-- The order in flight leaves its slot, and the frame with its tag is withdrawn. -/
theorem endFlight_eq (hi : (s.slot k).inFlight = some i) (y : Slot) : s.endFlight k y = (s.withdraw k [i.tag]).setSlot k y := by
  rw [State.endFlight, Slot.flightTags, hi]; rfl

theorem tags_of_flight (hi : (s.slot k).inFlight = some i) :
    (s.slot k).tags = i.tag :: ((s.slot k).announced.map Announced.tag).toList := by
  rw [Slot.tags, Slot.flightTags, hi]; rfl

/-- An order that ends in another way than by its timer raises no ORDER_TIMEOUT. -/
theorem endTasks_eq {how : End} (k : Nat) (tag : Option Nat) (o : Order) (h : how ≠ .timedOut) :
    endTasks k tag o how = .ended k tag o how :: moveEnds o := by
  rw [endTasks, if_neg h]; rfl

/-! ### The order timers (R115, R119) -/

theorem orderExpiry_order (hi : (s.slot k).inFlight = some i) (ho : i.order.kind ≠ .ident) : orderExpiry k s =
    ((s.withdraw k [i.tag]).setSlot k
        { (s.slot k).clearFlight with state := if (s.slot k).state = .ready then .faulted else (s.slot k).state },
      [.ended k (some i.tag) i.order .timedOut,
        .raise .orderTimeout ((i.order.lay?.map Subject.lay).getD .none) (k * 16 + i.tag)] ++ moveEnds i.order) := by
  simp only [orderExpiry, hi, if_neg ho, endFlight_eq hi]; rfl

theorem orderExpiry_ident (hi : (s.slot k).inFlight = some i) (ho : i.order.kind = .ident) : orderExpiry k s = (s, []) := by
  simp only [orderExpiry, hi, if_pos ho]

theorem orderExpiry_idle (hi : (s.slot k).inFlight = none) : orderExpiry k s = (s, []) := by simp only [orderExpiry, hi]

theorem identInFlight_iff (x : Slot) : (x.inFlight.any fun i => decide (i.order.kind = .ident)) = true ↔
    ∃ i, x.inFlight = some i ∧ i.order.kind = .ident := by
  simp [Option.any_eq_true]

theorem identExpiry_probing (hi : (s.slot k).inFlight = some i) (ho : i.order.kind = .ident) (hs : (s.slot k).state = .probing) :
    identExpiry k s = ((s.withdraw k (i.tag :: ((s.slot k).announced.map Announced.tag).toList)).setSlot k (s.slot k).toAbsent,
      ((s.slot k).announced.map fun a => endTasks k (some a.tag) a.order .lost).getD []) := by
  rw [identExpiry, if_pos ((identInFlight_iff _).mpr ⟨i, hi, ho⟩), if_pos hs, tags_of_flight hi]; rfl

theorem identExpiry_elsewhere (hi : (s.slot k).inFlight = some i) (ho : i.order.kind = .ident) (hs : (s.slot k).state ≠ .probing) :
    identExpiry k s = ((s.withdraw k [i.tag]).setSlot k (s.slot k).clearFlight, []) := by
  rw [identExpiry, if_pos ((identInFlight_iff _).mpr ⟨i, hi, ho⟩), if_neg hs, endFlight_eq hi]

theorem identExpiry_none (h : ∀ i, (s.slot k).inFlight = some i → i.order.kind ≠ .ident) : identExpiry k s = (s, []) :=
  if_neg fun hf => by
    obtain ⟨i, hi, ho⟩ := (identInFlight_iff _).mp hf
    exact h i hi ho

theorem exec_orderTimerExpiry {t : State} {work : List Task} (hr : s.resetHeld = false) (h : orderExpiry k s = (t, work)) :
    exec (.orderTimerExpiry k) s = .next (t.after work) := congrArg Host.Outcome.next (event_after hr h)

theorem exec_identTimerExpiry {t : State} {work : List Task} (hr : s.resetHeld = false) (h : identExpiry k s = (t, work)) :
    exec (.identTimerExpiry k) s = .next (t.after work) := congrArg Host.Outcome.next (event_after hr h)

end

/-- Settles O9: both expiries, by whether an order is in flight and whether it is IDENT. -/
theorem orderTimersExpire : Obligations.OrderTimersExpire := by
  intro s k hr
  refine ⟨fun i hi => ?_, fun hi => ?_⟩
  · exact ⟨fun ho => exec_orderTimerExpiry hr (orderExpiry_order hi ho),
      fun ho hs => exec_identTimerExpiry hr (identExpiry_probing hi ho hs),
      fun ho hs => exec_identTimerExpiry hr (identExpiry_elsewhere hi ho hs),
      fun ho => exec_orderTimerExpiry hr (orderExpiry_ident hi ho),
      fun ho => exec_identTimerExpiry hr (identExpiry_none fun j hj => Option.some.inj (hi.symm.trans hj) ▸ ho)⟩
  · exact ⟨exec_orderTimerExpiry hr (orderExpiry_idle hi), exec_identTimerExpiry hr (identExpiry_none fun j hj => by simp [hi] at hj)⟩

/-! ### How a report reaches its slot (R179, R180) -/

/-- A report that a slot hears leads to what follows the slot's taking of it, the copy last. -/
theorem exec_report_after {s t : State} {node k : Nat} {tag : Byte} {r : Report} {work : List Task} (hh : s.hears node k)
    (h : handReport k tag r s.reported = (t, work)) :
    exec (r.command node tag) s = .next (t.after (work ++ s.copyWork k node tag r)) := by
  rw [exec_report hh, h]; rfl

/-! ### IDENT_ANS (R114, R119) -/

section
variable {s : State} {k : Nat}

section
variable {i : InFlight} {kind : StationKind} (caps : Caps) (hi : (s.slot k).inFlight = some i) (ho : i.order.kind = .ident)
include hi ho

theorem takeIdentAns_configured (hk : (s.slot k).kind? = some kind) : takeIdentAns k kind caps s =
    ((s.withdraw k [i.tag]).setSlot k { (s.slot k).clearFlight with
      caps := some caps, state := if (s.slot k).state = .probing then .ready else (s.slot k).state }, []) := by
  simp [takeIdentAns, hi, ho, hk, endFlight_eq hi]

theorem takeIdentAns_otherKind (hk : (s.slot k).kind? ≠ some kind) : takeIdentAns k kind caps s =
    ((s.withdraw k [i.tag]).setSlot k { (s.slot k).clearFlight with
      caps := (s.slot k).caps, state := if (s.slot k).state = .probing then .faulted else (s.slot k).state },
      [.raise .stationFault (.slot k) (256 + StationKind.index kind)]) := by
  simp [takeIdentAns, hi, ho, hk, endFlight_eq hi]

end

theorem takeIdentAns_stray (kind : StationKind) (caps : Caps) (h : ∀ i, (s.slot k).inFlight = some i → i.order.kind ≠ .ident) :
    takeIdentAns k kind caps s = (s, [.raise .strayReport (.slot k) 512]) := by
  refine if_pos ?_
  cases hi : (s.slot k).inFlight with
  | none => rfl
  | some i => simpa using h i hi

end

/-- Settles O13: the configured kind, another kind, and no IDENT in flight. -/
theorem identAnsEndsProbe : Obligations.IdentAnsEndsProbe := by
  intro s node k tag kind caps hh u x copies ended
  have heard {t work} (h : takeIdentAns k kind caps u = (t, work)) := exec_report_after (tag := tag) (r := .identAns kind caps) hh h
  exact ⟨fun i hi ho hk => heard (takeIdentAns_configured (s := u) caps hi ho hk),
    fun i hi ho hk => heard (takeIdentAns_otherKind (s := u) caps hi ho hk),
    fun h => heard (takeIdentAns_stray (s := u) kind caps h)⟩

/-! ### DONE and REFUSED (R113, R114, R124) -/

section
variable {s : State} {k : Nat} {tag : Byte}

theorem matched_some {x : Slot} {i : InFlight} (hi : x.inFlight = some i) (ht : i.tag = tag.toNat) : matched x tag = some i := by
  simp [matched, hi, ht]

theorem matched_none {x : Slot} (h : ∀ i, x.inFlight = some i → i.tag ≠ tag.toNat) : matched x tag = none := by
  cases hi : x.inFlight with
  | none => simp [matched, hi]
  | some i => simp [matched, hi, h i hi]

section
variable {i : InFlight} (hi : (s.slot k).inFlight = some i) (ht : i.tag = tag.toNat)
include hi ht

theorem takeDone_matched (value : BitVec 32) : takeDone k tag value s =
    ((s.withdraw k [tag.toNat]).setSlot k (s.slot k).clearFlight, .ended k (some i.tag) i.order (.done value) :: moveEnds i.order) := by
  simp only [takeDone, matched_some hi ht, endFlight_eq hi, ht, endTasks_eq k _ i.order (how := .done value) (by simp)]

theorem takeRefused_matched (reason : Reason) : takeRefused k tag reason s =
    ((s.withdraw k [tag.toNat]).setSlot k (s.slot k).clearFlight, .ended k (some i.tag) i.order (.refused reason) :: moveEnds i.order) := by
  simp only [takeRefused, matched_some hi ht, endFlight_eq hi, ht, endTasks_eq k _ i.order (how := .refused reason) (by simp)]

end

section
variable (h : ∀ i, (s.slot k).inFlight = some i → i.tag ≠ tag.toNat)
include h

theorem takeDone_stray (value : BitVec 32) : takeDone k tag value s = (s, .raise .strayReport (.slot k) tag.toNat ::
    if (s.slot k).kind? = some .knife ∧ (s.slot k).lastStrokeTag = some tag.toNat then [.unbidden (tag.toNat + 256)] else []) := by
  simp [takeDone, matched_none h, isKind_eq, stray]

theorem takeRefused_stray (reason : Reason) :
    takeRefused k tag reason s = (s, [.raise .strayReport (.slot k) (256 + tag.toNat)]) := by
  simp only [takeRefused, matched_none h]; rfl

end

end

/-- Settles O14: an answer with the tag of the order in flight, and any other. -/
theorem answersMatchedByTag : Obligations.AnswersMatchedByTag := by
  intro s node k tag value reason hh u x ended
  have done {t work} (h : takeDone k tag value u = (t, work)) := exec_report_after (r := .done value) hh h
  have refused {t work} (h : takeRefused k tag reason u = (t, work)) := exec_report_after (r := .refused reason) hh h
  exact ⟨fun i hi ht => ⟨done (takeDone_matched (s := u) hi ht value), refused (takeRefused_matched (s := u) hi ht reason)⟩,
    fun h => ⟨done (takeDone_stray (s := u) h value), refused (takeRefused_stray (s := u) h reason)⟩⟩

/-! ### POS and GUARD_STATE (R124, R125) -/

theorem positionOf_eq (x : Slot) (value : BitVec 32) : positionOf x value =
    if x.kind? = some .knife then (if value = 0 then .top else .away) else .value value.toNat := by
  rw [positionOf, isKind_eq]; simp

/-- The cell states in which an open guard raises GUARD_OPEN, and the one in which an unlocked one does (R125). -/
theorem guardEvent_eq (st : CellState) (isOpen locked : Bool) : guardEvent st isOpen locked =
    if isOpen = true ∧ (st = .starting ∨ st = .running ∨ st = .stopping ∨ st = .waking ∨ st = .parking) then some 0
    else if isOpen = false ∧ locked = false ∧ st = .running then some 1 else none := by
  cases st <;> cases isOpen <;> cases locked <;> rfl

section
variable {s : State} {k : Nat} (isOpen locked : Bool)

theorem takeGuardState_guard (hk : (s.slot k).kind? = some .guard) : takeGuardState k isOpen locked s =
    (s.setSlot k { s.slot k with guard := some ⟨isOpen, locked⟩ },
      if isOpen = true ∧ (s.cell.state = .starting ∨ s.cell.state = .running ∨ s.cell.state = .stopping ∨ s.cell.state = .waking ∨
          s.cell.state = .parking) then [.raise .guardOpen (.slot k) 0]
      else if isOpen = false ∧ locked = false ∧ s.cell.state = .running then [.raise .guardOpen (.slot k) 1] else []) := by
  rw [takeGuardState, isKind_eq, decide_eq_true hk, if_pos rfl, guardEvent_eq]
  refine congrArg (Prod.mk _) ?_
  split
  · rfl
  · split <;> rfl

theorem takeGuardState_stray (hk : (s.slot k).kind? ≠ some .guard) :
    takeGuardState k isOpen locked s = (s, [.raise .strayReport (.slot k) 514]) := by
  rw [takeGuardState, isKind_eq, decide_eq_false hk]; rfl

end

/-- Settles O15: POS of every kind, GUARD_STATE of a GUARD slot and of another. -/
theorem posAndGuardStateSetSlot : Obligations.PosAndGuardStateSetSlot := by
  intro s node k tag hh u x
  have guard {isOpen locked t work} (h : takeGuardState k isOpen locked u = (t, work)) :=
    exec_report_after (tag := tag) (r := .guardState isOpen locked) hh h
  refine ⟨fun value => ?_, fun isOpen locked hk => guard (takeGuardState_guard (s := u) isOpen locked hk),
    fun isOpen locked hk => guard (takeGuardState_stray (s := u) isOpen locked hk)⟩
  rw [← positionOf_eq]
  exact exec_report_after (r := .pos value) hh rfl

/-! ### FAULT (R121) -/

/-- Settles O17: the model's own equation of a FAULT, reached through the report's arrival. -/
theorem faultFaultsSlot : Obligations.FaultFaultsSlot := fun _ _ _ _ code hh =>
  exec_report_after (r := .fault code) hh rfl

/-! ### BUTTON (R126) -/

section
variable {s : State} {k : Nat}

theorem takeButton_stray (h : (s.slot k).caps.any Caps.button = false) :
    takeButton k s = (s, [.raise .strayReport (.slot k) 515]) := if_neg (by simp [h])

section
variable {c : SlotConfig} (h : (s.slot k).caps.any Caps.button = true) (hc : (s.slot k).config = some c)
include h hc

theorem takeButton_none (hb : c.button = .none) : takeButton k s = (s, []) := by
  simp only [takeButton, h, hc, Option.map_some, hb, if_true]

theorem takeButton_notify (hb : c.button = .notify) : takeButton k s = (s, [.raise .button (.slot k) 0]) := by
  simp only [takeButton, h, hc, Option.map_some, hb, if_true]

theorem takeButton_stopCell (hb : c.button = .stopCell) : takeButton k s = (s, [.raise .button (.slot k) 1, .stopAsked]) := by
  simp only [takeButton, h, hc, Option.map_some, hb, if_true]

end

end

/-- Settles O18: each button action, a station without BUTTON, and the STOP that is asked for. -/
theorem buttonActs : Obligations.ButtonActs := by
  intro s node k tag hh copies can
  have pressed {t work} (h : takeButton k s.reported = (t, work)) := exec_report_after (tag := tag) (r := .button) hh h
  exact ⟨fun c h hc hb => pressed (takeButton_none (s := s.reported) h hc hb),
    fun c h hc hb => pressed (takeButton_notify (s := s.reported) h hc hb),
    fun c h hc hb => pressed (takeButton_stopCell (s := s.reported) h hc hb),
    fun h => pressed (takeButton_stray (s := s.reported) h), rfl⟩

/-! ### PRESENCE (R118, R122) -/

theorem mayLeave_iff (x : Slot) (s : State) : mayLeave x s = true ↔
    x.config.any SlotConfig.removable = true ∧ x.inFlight = none ∧ s.cell.state ≠ .running := by
  simp [mayLeave, and_assoc]

theorem takePresence_down (k : Nat) (s : State) : takePresence k false s =
    ((s.withdraw k (s.slot k).tags).setSlot k (s.slot k).toAbsent,
      (s.slot k).lostTasks k ++ .raise .presenceChanged (.slot k) 0 ::
        (if (s.slot k).state = .absent ∨ ((s.slot k).config.any SlotConfig.removable = true ∧ (s.slot k).inFlight = none ∧
          s.cell.state ≠ .running) then [] else [.raise .stationLost (.slot k) 0])) := by
  simp only [takePresence, Bool.false_eq_true, if_false, mayLeave_iff]; rfl

/-- Settles O19: a station that comes and one that goes. -/
theorem presenceTakesSlotAbsent : Obligations.PresenceTakesSlotAbsent := by
  intro s node k tag hh u x tags
  exact ⟨exec_report_after (r := .presence true) hh rfl,
    exec_report_after (r := .presence false) hh (takePresence_down k u)⟩

/-! ### The ring (R123) -/

/-- The ring's fall writes the link and the slots: the loss counted, the output emptied, every configured slot ABSENT; a frame that was
being received fails check 1 (log 23). -/
theorem ringFalls_eq (receiving : Bool) (s : State) : ringFalls receiving s =
    ({ s with
        link := { s.link with
          ringUp := false, leaving := none, output := []
          sFlags := if receiving then { s.link.sFlags with framing := true, sum := true } else s.link.sFlags
          sStats := { s.link.sStats with
            lockLosses := bump32 s.link.sStats.lockLosses
            checkFailures := if receiving then bump32 s.link.sStats.checkFailures else s.link.sStats.checkFailures } }
        slots := s.slots.map fun x => if x.config.isSome then x.toAbsent else x },
      (if receiving then [.raise .linkCheck .none 1] else []) ++ (s.slots.zipIdx.flatMap fun p => p.1.lostTasks p.2) ++
        (s.slotsWhere fun x => decide (x.state = .ready)).map fun k => .raise .stationLost (.slot k) 1) := by
  cases receiving <;> rfl

/-- Settles O24: the ring comes up, falls where it is down, and falls where it is up. -/
theorem ringChanges : Obligations.RingChanges := by
  intro s hr
  refine ⟨congrArg Host.Outcome.next (unlessReset_free hr), fun receiving hd => congrArg Host.Outcome.next ?_,
    fun receiving hu => congrArg Host.Outcome.next ?_⟩
  · rw [unlessReset_free hr, hd]; rfl
  · rw [unlessReset_free hr, if_pos hu, event, ringFalls_eq]; rfl

end Sys2Proof.Machine
end

section
/-! The requests that concern slots: LOAD_SLOT with the write it leads to, PROBE and RETRAIN (spec files 06, 09 and 11). -/

namespace Sys2Proof.Machine

/-! ### LOAD_SLOT (R130, R192) -/

theorem parseRequest_encode_loadSlot (slot : Byte) (config : Option SlotLoad) :
    parseRequest (encodeRequest (.loadSlot slot config)) = some (.loadSlot slot config) := by
  cases config with
  | none => exact parseRequest_unloadSlot slot
  | some load =>
    refine (parseRequest_loadSlot slot (encodeSlotLoad load)).trans ?_
    rw [parseSlotLoad_encode]; rfl

/-- A LOAD_SLOT request is answered as `doLoadSlot` answers it. -/
theorem loadSlot_arrives {s : State} (h : s.awaitsRequest) (tag slot : Byte) (config : Option SlotLoad) {a : Answer}
    (ha : doLoadSlot slot config s.taking = a) :
    exec (.loadSlot tag slot config) s = .next (a.state.answered tag (.loadSlot slot config) a.result a.body) := by
  subst ha
  exact request_arrives tag _ (encodeRequest_length _ (by simp) (by simp)) h (parseRequest_encode_loadSlot slot config)

/-- Another configured slot holds the node address. -/
theorem nodeTaken_iff (s : State) (k node : Nat) : s.nodeTaken k node = true ↔
    ∃ j < s.slots.length, j ≠ k ∧ ((s.slot j).config.any fun d => decide (d.node = node)) = true := by
  simp only [State.nodeTaken, List.any_eq_true, Bool.and_eq_true, decide_eq_true_eq, Prod.exists]
  constructor
  · rintro ⟨x, j, hm, hj, hx⟩
    obtain ⟨hlt, hget⟩ := List.mem_zipIdx' hm
    exact ⟨j, hlt, hj, by rw [← slot_of_getElem hlt, ← hget]; exact hx⟩
  · rintro ⟨j, hlt, hj, hx⟩
    exact ⟨s.slots[j], j, List.mem_zipIdx_iff_getElem?.mpr (List.getElem?_eq_getElem hlt), hj, by rw [slot_of_getElem hlt]; exact hx⟩

theorem taking_nodeTaken (s : State) (k node : Nat) : s.taking.nodeTaken k node = s.nodeTaken k node := by
  unfold State.nodeTaken; rw [taking_slots]

section
variable {s : State} {slot : Byte}

theorem doLoadSlot_badState (config : Option SlotLoad) (h : ¬(s.cell.state = .off ∨ s.cell.state = .standby)) :
    doLoadSlot slot config s = refuse .badState s := if_pos (not_or.mp h)

section
variable (hs : s.cell.state = .off ∨ s.cell.state = .standby)
include hs

theorem takesLoadSlot : ¬(s.cell.state ≠ .off ∧ s.cell.state ≠ .standby) := fun ⟨hoff, hstandby⟩ => hs.elim hoff hstandby

theorem doLoadSlot_noSlot (config : Option SlotLoad) (hk : 12 ≤ slot.toNat) : doLoadSlot slot config s = refuse .badArg s :=
  (if_neg (takesLoadSlot hs)).trans (if_pos hk)

section
variable (hk : slot.toNat < 12)
include hk

theorem doLoadSlot_empties : doLoadSlot slot none s = accept (loadSlot slot.toNat none s) :=
  (if_neg (takesLoadSlot hs)).trans (if_neg (Nat.not_le.mpr hk))

section
variable {load : SlotLoad}

theorem doLoadSlot_outOfRange (hc : slotConfigOf load = none) : doLoadSlot slot (some load) s = refuse .badArg s := by
  simp only [doLoadSlot, if_neg (takesLoadSlot hs), if_neg (Nat.not_le.mpr hk), hc]

theorem doLoadSlot_nodeTaken {c : SlotConfig} (hc : slotConfigOf load = some c) (hn : s.nodeTaken slot.toNat c.node = true) :
    doLoadSlot slot (some load) s = refuse .badArg s := by
  simp only [doLoadSlot, if_neg (takesLoadSlot hs), if_neg (Nat.not_le.mpr hk), hc, if_pos hn]

theorem doLoadSlot_configures {c : SlotConfig} (hc : slotConfigOf load = some c) (hn : ¬s.nodeTaken slot.toNat c.node = true) :
    doLoadSlot slot (some load) s = accept (loadSlot slot.toNat (some c) s) := by
  simp only [doLoadSlot, if_neg (takesLoadSlot hs), if_neg (Nat.not_le.mpr hk), hc, if_neg hn]

end

end

end

end

/-- The write of a configuration to a slot without work is the loading of its record. -/
theorem writeSlot_idle {s : State} {k : Nat} (c : Option SlotConfig) (h : (s.slot k).orders = []) :
    writeSlot k c s = (s.setSlot k ((s.slot k).load c), []) := if_pos h

section
variable {c : SlotConfig} (x : Slot)

/-- A slot whose lamp follows AUTO wants BLINK, which is pending where the lamp does not show it already (R127, R130). -/
theorem load_auto (h : c.lamp = .auto) : x.load (some c) = { Slot.unused with
    config := some c, state := .absent, nextTag := x.nextTag, lamp := x.lamp, wanted := .blink
    lampPending := if .blink = x.lamp then none else some .blink } := by
  simp only [Slot.load, h, Slot.want]

theorem load_fixed {v : LampState} (h : c.lamp = .fixed v) : x.load (some c) = { Slot.unused with
    config := some c, state := .absent, nextTag := x.nextTag, lamp := x.lamp, lampPending := some v } := by
  simp only [Slot.load, h]

end

/-- Settles O38: the checks of a LOAD_SLOT in their order, its taking, and the write that its work ends with. -/
theorem loadSlotWritesConfiguration : Obligations.LoadSlotWritesConfiguration := by
  refine ⟨?request, ?write⟩
  case request =>
    intro s tag slot config h u k r taken
    have answer {a : Answer} (ha : doLoadSlot slot config u = a) := loadSlot_arrives h tag slot config ha
    have hcell : u.cell = s.cell := taking_cell s
    have htaken {c : SlotConfig} : u.nodeTaken k c.node = true ↔
        ∃ j < s.slots.length, j ≠ k ∧ ((s.slot j).config.any fun d => decide (d.node = c.node)) = true := by
      rw [taking_nodeTaken, nodeTaken_iff]
    have hloads (c : Option SlotConfig) : accept (loadSlot k c u) = ⟨((u.withdraw k (s.slot k).tags).setSlot k
        { s.slot k with inFlight := none, announced := none, posted := [], waiting := [] }).worked
          ((s.slot k).orders.flatMap (fun o => endTasks k none o .dropped) ++ [.writeSlot k c]), .ok, []⟩ := by
      rw [← taking_slot]; rfl
    refine ⟨fun hs => answer (doLoadSlot_badState config (by rwa [hcell])),
      fun hs hk => answer (doLoadSlot_noSlot (by rwa [hcell]) config hk), fun load hs hk hl hc => ?_, fun load c hs hk hl hc hn => ?_,
      fun c hs hk hok => ?_⟩
    · subst hl
      exact answer (doLoadSlot_outOfRange (by rwa [hcell]) hk hc)
    · subst hl
      exact answer (doLoadSlot_nodeTaken (by rwa [hcell]) hk hc (htaken.mpr hn))
    · obtain ⟨rfl, rfl⟩ | ⟨load, d, rfl, hd, rfl, hn⟩ := hok
      · exact answer ((doLoadSlot_empties (by rwa [hcell]) hk).trans (hloads none))
      · refine answer ((doLoadSlot_configures (by rwa [hcell]) hk hd fun ht => ?_).trans (hloads (some d)))
        obtain ⟨j, hj, hne, hnode⟩ := htaken.mp ht
        exact absurd hnode (by simp [hn j hj hne])
  case write =>
    intro s k c ho _
    refine ⟨_, writeSlot_idle c ho, ?_⟩
    cases c with
    | none => exact ⟨rfl, rfl, rfl, rfl, rfl, rfl, rfl, rfl, rfl, rfl, rfl, rfl⟩
    | some c =>
      cases hl : c.lamp with
      | fixed v => rw [load_fixed _ hl]; simp [Slot.unused, Slot.orders, hl]
      | auto => rw [load_auto _ hl]; simp [Slot.unused, Slot.orders, hl, eq_comm]

/-! ### PROBE and RETRAIN (R119, R120, R160) -/

/-- A request to Cell Control is answered as `cellControl` answers it. -/
theorem cellControl_arrives {s : State} (h : s.awaitsRequest) (tag action : Byte) {a : Answer} (ha : cellControl action s.taking = a) :
    requestArrives tag (.cellControl action) s = .next (a.state.answered tag (.cellControl action) a.result a.body) := by
  subst ha
  exact request_arrives tag _ (by simp [encodeRequest, requestArgs]) h (parseRequest_cellControl action)

/-- The configured slots that satisfy p enter PROBING where the ring is UP. -/
theorem probe_eq (s : State) (p : Slot → Bool) : s.probe p = { s with
    slots := s.slots.map fun x =>
      if s.link.ringUp = true ∧ x.config.isSome = true ∧ p x = true then { x with state := .probing } else x } := by
  unfold State.probe
  cases hr : s.link.ringUp <;> simp

theorem doProbe_probes {s : State} (h : s.cell.state = .off ∨ s.cell.state = .standby) :
    doProbe s = accept (s.probe fun _ => true, [.enter .probing]) := if_pos h

theorem doProbe_badState {s : State} (h : ¬(s.cell.state = .off ∨ s.cell.state = .standby)) : doProbe s = refuse .badState s := if_neg h

/-- Settles O45: the cases of `doProbe`, and `doRetrain`. -/
theorem probeAndRetrain : Obligations.ProbeAndRetrain := by
  intro s tag h u probed
  have hcell : u.cell = s.cell := taking_cell s
  have hprobe (p : Slot → Bool) : u.probe p = probed p := by
    rw [probe_eq, taking_slots, taking_ringUp]
  refine ⟨fun hs => ?_, fun h1 h2 => ?_, ?_⟩
  · rw [← hprobe]
    exact cellControl_arrives h tag 0 (doProbe_probes (by rwa [hcell]))
  · exact cellControl_arrives h tag 0 (doProbe_badState (by rw [hcell]; exact not_or.mpr ⟨h1, h2⟩))
  · rw [← hprobe]
    exact cellControl_arrives h tag 4 rfl

end Sys2Proof.Machine
end

section
/-! The life of an order (spec file 06): how it is posted, what a slot sends and when, how its end reaches the records and its origins, and
the values AUTO wants; one equation for each case, then the statement put together from them. -/

namespace Sys2Proof.Machine

/-! ### Which order makes way (R111, R116) -/

theorem dropYoungest_eq_none {p : Order → Bool} {l : List Order} (h : ∀ q ∈ l, p q = false) : dropYoungest p l = none := by
  induction l with
  | nil => rfl
  | cons o l ih =>
    obtain ⟨ho, hl⟩ := List.forall_mem_cons.mp h
    simp [dropYoungest, ih hl, ho]

/-- The order that is dropped is the one that satisfies p with none behind it that does. -/
theorem dropYoungest_youngest {p : Order → Bool} {d : Order} (older : List Order) {younger : List Order} (hd : p d = true)
    (hy : ∀ q ∈ younger, p q = false) : dropYoungest p (older ++ d :: younger) = some (older ++ younger, d) := by
  induction older with
  | nil => simp [dropYoungest, dropYoungest_eq_none hy, hd]
  | cons o older ih => simp only [List.cons_append, dropYoungest, ih]

/-- An order that may make way for a CELL order (R111). -/
def Order.mayGo (d : Order) : Prop := d.kind ≠ .stop ∧ ∀ c ∈ d.sources, c ≠ .cell true ∧ c ≠ .cell false

theorem givesWay_iff (d : Order) : d.givesWay = true ↔ d.mayGo := by
  simp only [Order.givesWay, Order.mayGo, Bool.and_eq_true, decide_eq_true_eq, List.all_eq_true]
  refine and_congr_right fun _ => forall₂_congr fun c _ => ?_
  cases c with
  | cell awaited => cases awaited <;> simp
  | _ => simp

/-! ### Posting (R110, R111) -/

section
variable {s : State} {k : Nat} {o : Order}

theorem postOrder_local (h : (s.slot k).completesLocally o.kind = true) : postOrder k o s = (s, endTasks k none o (.done 0)) :=
  if_pos h

section
variable (hc : (s.slot k).completesLocally o.kind = false) (ho : o.kind ≠ .stop)
include hc ho

theorem postOrder_room (hl : (s.slot k).posted.length < 4) :
    postOrder k o s = (s.setSlot k { s.slot k with posted := (s.slot k).posted ++ [o] }, []) := by
  simp only [postOrder, hc, Bool.false_eq_true, if_false, if_neg ho, if_pos hl]

theorem postOrder_full (hl : 4 ≤ (s.slot k).posted.length) : postOrder k o s = placeFull k o s := by
  simp only [postOrder, hc, Bool.false_eq_true, if_false, if_neg ho, if_neg (Nat.not_lt.mpr hl)]

end

theorem placeFull_layOrigin (h : ∀ c ∈ o.sources, c.lay?.isSome = true) :
    placeFull k o s = (s.setSlot k { s.slot k with waiting := (s.slot k).waiting ++ [o] }, []) :=
  if_pos (List.all_eq_true.mpr h)

theorem placeFull_direct {answerTag : Byte} (h : o.sources = [.direct answerTag]) : placeFull k o s = (s, []) := by
  simp [placeFull, Order.isLayOrigin, Source.isLayOrigin, Source.lay?, h]

end

section
variable {s : State} {k : Nat} {o : Order} {awaited : Bool} (h : o.sources = [.cell awaited])
include h

theorem placeFull_waits (hp : ∀ q ∈ (s.slot k).posted, ¬q.mayGo) :
    placeFull k o s = (s.setSlot k { s.slot k with waiting := (s.slot k).waiting ++ [o] }, []) := by
  have hnone : dropYoungest Order.givesWay (s.slot k).posted = none :=
    dropYoungest_eq_none fun q hq => Bool.eq_false_iff.mpr (mt (givesWay_iff q).mp (hp q hq))
  cases awaited <;> simp [placeFull, Order.isLayOrigin, Source.isLayOrigin, Source.lay?, h, hnone]

theorem placeFull_drops {older younger : List Order} {d : Order} (hp : (s.slot k).posted = older ++ d :: younger) (hd : d.mayGo)
    (hy : ∀ q ∈ younger, ¬q.mayGo) :
    placeFull k o s = (s.setSlot k { s.slot k with posted := older ++ younger ++ [o] }, endTasks k none d .dropped) := by
  have hsome : dropYoungest Order.givesWay (older ++ d :: younger) = some (older ++ younger, d) :=
    dropYoungest_youngest older ((givesWay_iff d).mpr hd) fun q hq => Bool.eq_false_iff.mpr (mt (givesWay_iff q).mp (hy q hq))
  cases awaited <;> simp [placeFull, Order.isLayOrigin, Source.isLayOrigin, Source.lay?, h, hp, hsome]

end

/-! ### Posting a STOP (R116) -/

section
variable {s : State} {k : Nat} {o : Order}

theorem postOrder_stop (ho : o.kind = .stop) : postOrder k o s = placeStop k o s := by
  simp [postOrder, ho, Slot.completesLocally]

theorem placeStop_announced {a : Announced} (ha : (s.slot k).announced = some a) :
    placeStop k o s = (s.setSlot k { s.slot k with announced := some { a with order := a.order.join o } }, []) := by
  simp only [placeStop, ha]

section
variable (ha : (s.slot k).announced = none)
include ha

theorem placeStop_inFlight {i : InFlight} (hi : (s.slot k).inFlight = some i) (hs : i.order.kind = .stop) :
    placeStop k o s = (s.setSlot k { s.slot k with inFlight := some { i with order := i.order.join o } }, []) := by
  cases hp : (s.slot k).posted <;> simp only [placeStop, ha, hi, hp, if_pos hs]

section
variable (hf : ∀ i, (s.slot k).inFlight = some i → i.order.kind ≠ .stop)
include hf

theorem placeStop_joinsHead {h : Order} {rest : List Order} (hp : (s.slot k).posted = h :: rest) (hs : h.kind = .stop) :
    placeStop k o s = (s.setSlot k { s.slot k with posted := h.join o :: rest }, []) := by
  cases hi : (s.slot k).inFlight with
  | none => simp only [placeStop, ha, hi, hp, if_pos hs]
  | some i => simp only [placeStop, ha, hi, hp, if_neg (hf i hi), if_pos hs]

section
variable (hh : ∀ h rest, (s.slot k).posted = h :: rest → h.kind ≠ .stop)
include hh

theorem placeStop_announces (hi : (s.slot k).inFlight.isSome = true) (hs : (s.slot k).state = .ready ∨ (s.slot k).state = .faulted) :
    placeStop k o s = (announceStop k o s, []) := by
  obtain ⟨i, hi⟩ := Option.isSome_iff_exists.mp hi
  cases hp : (s.slot k).posted with
  | nil => simp only [placeStop, ha, hi, hp, if_neg (hf i hi), if_pos hs]
  | cons h rest => simp only [placeStop, ha, hi, hp, if_neg (hf i hi), if_neg (hh h rest hp), if_pos hs]

theorem placeStop_heads (hs : (s.slot k).inFlight = none ∨ ((s.slot k).state ≠ .ready ∧ (s.slot k).state ≠ .faulted)) :
    placeStop k o s = headStop k o s := by
  cases hi : (s.slot k).inFlight with
  | none =>
    cases hp : (s.slot k).posted with
    | nil => simp only [placeStop, ha, hi, hp]
    | cons h rest => simp only [placeStop, ha, hi, hp, if_neg (hh h rest hp)]
  | some i =>
    have hst : ¬((s.slot k).state = .ready ∨ (s.slot k).state = .faulted) := not_or.mpr (hs.resolve_left (by simp [hi]))
    cases hp : (s.slot k).posted with
    | nil => simp only [placeStop, ha, hi, hp, if_neg (hf i hi), if_neg hst]
    | cons h rest => simp only [placeStop, ha, hi, hp, if_neg (hf i hi), if_neg (hh h rest hp), if_neg hst]

end

end

end

theorem headStop_room (hl : (s.slot k).posted.length < 4) :
    headStop k o s = (s.setSlot k { s.slot k with posted := o :: (s.slot k).posted }, []) := if_pos hl

theorem headStop_drops {older younger : List Order} {d : Order} (hl : 4 ≤ (s.slot k).posted.length)
    (hp : (s.slot k).posted = older ++ d :: younger) (hd : d.kind ≠ .stop) (hy : ∀ q ∈ younger, q.kind = .stop) :
    headStop k o s = (s.setSlot k { s.slot k with posted := o :: older ++ younger }, endTasks k none d .dropped) := by
  have hfull : ¬(o :: (s.slot k).posted).length ≤ 4 := Nat.not_le.mpr (Nat.succ_le_succ hl)
  have hsome : dropYoungest (fun d => decide (d.kind ≠ .stop)) (o :: (s.slot k).posted) = some (o :: older ++ younger, d) := by
    rw [hp]
    exact dropYoungest_youngest (o :: older) (by simpa using hd) fun q hq => by simp [hy q hq]
  simp only [headStop, if_neg hfull, hsome]

end

/-! ### Sending (R112, R127) -/

theorem setSlot_setSlot (s : State) (k : Nat) (x y : Slot) : (s.setSlot k x).setSlot k y = s.setSlot k y := by
  simp [State.setSlot]

theorem setSlot_self {s : State} {k : Nat} (hk : k < s.slots.length) : s.setSlot k (s.slot k) = s := by
  rw [State.setSlot, ← slot_of_getElem hk, List.set_getElem_self]

/-- The ORDER frame of an order that the slot sends next. -/
def Slot.nextFrame (k : Nat) (x : Slot) (o : OrderKind) : OrderFrame := ⟨k, (x.config.map SlotConfig.node).getD 0, x.nextTag, o⟩

section
variable {s : State} {k : Nat}

/-- A record that is written and then sends its order is the record after the sending, written. -/
theorem sendOrder_setSlot (hk : k < s.slots.length) (y : Slot) (o : Order) (ms : Nat) :
    (s.setSlot k y).sendOrder k o ms = (s.setSlot k (y.sent o ms)).handFrame (y.nextFrame k o.kind) := by
  have hy : (s.setSlot k y).slot k = y := by rw [slot_setSlot, if_pos ⟨rfl, hk⟩]
  rw [State.sendOrder, hy]
  exact congrArg (State.handFrame · (y.nextFrame k o.kind)) (setSlot_setSlot s k y (y.sent o ms))

theorem sendLamp_eq (hk : k < s.slots.length) (v : LampState) : s.sendLamp k v =
    if (s.slot k).caps.any Caps.lamp = true then
      (s.setSlot k (Slot.sent ⟨.lamp v, [.lamp]⟩ (s.slot k).timeoutOf { s.slot k with lampPending := none, lamp := v })).handFrame
        ((s.slot k).nextFrame k (.lamp v))
    else s.setSlot k { s.slot k with lampPending := none, lamp := v } := by
  rw [State.sendLamp, Slot.completesLocally]
  cases (s.slot k).caps.any Caps.lamp
  · rfl
  · exact sendOrder_setSlot hk _ _ _

theorem sendHead_eq (hk : k < s.slots.length) (o : Order) (rest : List Order) : s.sendHead k o rest =
    (s.setSlot k (Slot.sent o (s.slot k).timeoutOf { s.slot k with
        posted := rest ++ (s.slot k).waiting.take (4 - rest.length), waiting := (s.slot k).waiting.drop (4 - rest.length) })).handFrame
      ((s.slot k).nextFrame k o.kind) :=
  sendOrder_setSlot hk _ _ _

theorem slotSend_busy (hi : (s.slot k).inFlight.isSome = true) : s.slotSend k = none := if_pos hi

section
variable (hi : (s.slot k).inFlight = none)
include hi

theorem slotSend_silent (hs : (s.slot k).state = .absent ∨ (s.slot k).state = .unused) : s.slotSend k = none := by
  rcases hs with hs | hs <;> simp [State.slotSend, hi, hs]

theorem slotSend_probing (hs : (s.slot k).state = .probing) :
    s.slotSend k = some (s.sendOrder k ⟨.ident, [.cell false]⟩ s.cell.params.probeTimeout) := by
  simp [State.slotSend, hi, hs]

theorem slotSend_faulted (hs : (s.slot k).state = .faulted) : s.slotSend k = (s.slot k).lampPending.map (s.sendLamp k) := by
  simp [State.slotSend, hi, hs]

section
variable (hs : (s.slot k).state = .ready)
include hs

theorem slotSend_ready : s.slotSend k = s.sendReady k := by simp [State.slotSend, hi, hs]

theorem slotSend_idle (hp : (s.slot k).posted = []) (hl : (s.slot k).lampPending = none) : s.slotSend k = none := by
  rw [slotSend_ready hi hs]; simp only [State.sendReady, hp, hl]

theorem slotSend_lamp {v : LampState} (hl : (s.slot k).lampPending = some v)
    (hp : ∀ o rest, (s.slot k).posted = o :: rest → o.kind ≠ .stop ∧ o.kind ≠ .stroke) :
    s.slotSend k = some (s.sendLamp k v) := by
  rw [slotSend_ready hi hs]
  cases hq : (s.slot k).posted with
  | nil => simp only [State.sendReady, hq, hl]
  | cons o rest => simp only [State.sendReady, hq, hl, if_neg (not_or.mpr (hp o rest hq))]

theorem slotSend_head {o : Order} {rest : List Order} (hp : (s.slot k).posted = o :: rest)
    (hl : (s.slot k).lampPending = none ∨ o.kind = .stop ∨ o.kind = .stroke) : s.slotSend k = some (s.sendHead k o rest) := by
  rw [slotSend_ready hi hs]
  cases hq : (s.slot k).lampPending with
  | none => simp only [State.sendReady, hp, hq]
  | some v => simp only [State.sendReady, hp, hq, if_pos (hl.resolve_left (by simp [hq]))]

end

end

/-! ### The slots in their order, the output list and its frames (R112, R123, R181, log 4) -/

theorem sendRule_first {u : State} (hk : k < 12) (hu : s.slotSend k = some u) (hb : ∀ j < k, s.slotSend j = none) :
    sendRule s = some (u, []) := by
  obtain ⟨m, hm⟩ : ∃ m, 12 = k + (m + 1) := ⟨11 - k, by omega⟩
  have hbefore : (List.range k).findSome? s.slotSend = none :=
    List.findSome?_eq_none_iff.mpr fun j hj => hb j (List.mem_range.mp hj)
  rw [sendRule, hm, List.range_add, List.range_succ_eq_map, List.findSome?_append, hbefore]
  simp [hu]

theorem sendRule_none (h : ∀ k < 12, s.slotSend k = none) : sendRule s = none := by
  rw [sendRule, List.findSome?_eq_none_iff.mpr fun k hk => h k (List.mem_range.mp hk)]; rfl

end

section
variable {s : State} (f : OrderFrame)

theorem handFrame_down (hr : s.link.ringUp = false) : s.handFrame f = s := by
  rw [State.handFrame, LinkUnit.handFrame, if_pos hr]

theorem handFrame_leaves (hr : s.link.ringUp = true) (hl : s.link.leaving = none) :
    s.handFrame f = { s with link := { s.link with leaving := some f } } := by
  simp [State.handFrame, LinkUnit.handFrame, hr, hl]

theorem handFrame_waits (hr : s.link.ringUp = true) (hl : s.link.leaving.isSome = true) :
    s.handFrame f = { s with link := { s.link with output := s.link.output ++ [f] } } := by
  obtain ⟨g, hl⟩ := Option.isSome_iff_exists.mp hl
  simp [State.handFrame, LinkUnit.handFrame, hr, hl]

end

/-- The frames that stay when those of a slot with such tags are withdrawn. -/
theorem mem_withdraw {s : State} {k : Nat} {tags : List Nat} {f : OrderFrame} :
    f ∈ (s.withdraw k tags).link.output ↔ f ∈ s.link.output ∧ ¬(f.slot = k ∧ f.tag ∈ tags) := by
  rw [State.withdraw, List.mem_filter]
  refine and_congr_right fun _ => ?_
  rw [Bool.not_eq_true', ← Bool.not_eq_true, Bool.and_eq_true, decide_eq_true_eq, decide_eq_true_eq]

/-! ### The end of an order (R110, R113, R178) -/

/-- A sequencer order is among those the order stands for. -/
def Order.sequenced (o : Order) : Prop := ∃ n halted, Source.sequence n halted ∈ o.sources

def Source.isSequence : Source → Bool
  | .sequence _ _ => true
  | _ => false

theorem sequenced_iff (o : Order) : o.sources.any Source.isSequence = true ↔ o.sequenced := by
  rw [List.any_eq_true]
  constructor
  · rintro ⟨c, hc, h⟩
    cases c with
    | sequence n halted => exact ⟨n, halted, hc⟩
    | _ => exact absurd h Bool.false_ne_true
  · rintro ⟨n, halted, hc⟩
    exact ⟨_, hc, rfl⟩

/-- The order moves or holds the clamp. -/
def Order.clamps (o : Order) : Prop := (∃ level, o.kind = .clamp level) ∨ o.kind = .release

/-- The order moves the gauge. -/
def Order.gauges (o : Order) : Prop := (∃ q, o.kind = .move q) ∨ o.kind = .pushOut

section
variable (s : State) (k : Nat) {o : Order}

theorem recordsUnknown_clamps (h : o.clamps) : s.recordsUnknown k o =
    if o.sources.any Source.isSequence = true ∨ s.working .clamp = some k then s.setClamp .unknown else s := by
  obtain ⟨level, hk⟩ | hk := h <;> (simp only [State.recordsUnknown, hk]; rfl)

theorem recordsUnknown_gauges (h : o.gauges) : s.recordsUnknown k o =
    if o.sources.any Source.isSequence = true ∨ s.working .gauge = some k then s.setGauge .unknown else s := by
  obtain ⟨q, hk⟩ | hk := h <;> (simp only [State.recordsUnknown, hk]; rfl)

theorem recordsUnknown_others (hc : ¬o.clamps) (hg : ¬o.gauges) : s.recordsUnknown k o = s := by
  obtain ⟨kind, sources⟩ := o
  cases kind with
  | clamp level => exact absurd (.inl ⟨level, rfl⟩) hc
  | release => exact absurd (.inr rfl) hc
  | move q => exact absurd (.inl ⟨q, rfl⟩) hg
  | pushOut => exact absurd (.inr rfl) hg
  | _ => rfl

end

/-- The clamp's or the gauge's record is concerned by the order's end in the slot. -/
def State.concerns (s : State) (kind : StationKind) (k : Nat) (o : Order) : Prop := o.sequenced ∨ s.working kind = some k

section
variable {s : State} {k : Nat} {o : Order} {how : End} (tag : Option Nat)

section
variable (hd : how.isDone = true)
include hd

theorem orderEnded_enable {on : Bool} (hk : o.kind = .enable on) : orderEnded k tag o how s =
    (s.setSlot k { s.slot k with drive := on }, o.sources.map fun src => .endFor k tag o.kind src how) := by
  rw [orderEnded, if_pos hd, State.updateSlot, Slot.orderDone, hk]

theorem orderEnded_lamp {v : LampState} (hk : o.kind = .lamp v) (hs : o.sources ≠ [.lamp]) : orderEnded k tag o how s =
    (s.setSlot k { s.slot k with lamp := v }, o.sources.map fun src => .endFor k tag o.kind src how) := by
  simp only [orderEnded, if_pos hd, State.updateSlot, Slot.orderDone, hk, if_neg hs]

theorem orderEnded_others (hlt : k < s.slots.length) (he : ∀ on, o.kind ≠ .enable on)
    (hl : ∀ v, o.kind = .lamp v → o.sources = [.lamp]) :
    orderEnded k tag o how s = (s, o.sources.map fun src => .endFor k tag o.kind src how) := by
  have hsame : Slot.orderDone o (s.slot k) = s.slot k := by
    unfold Slot.orderDone
    split
    · rename_i on hk; exact absurd hk (he on)
    · rename_i v hk; rw [if_pos (hl v hk)]
    · rfl
  rw [orderEnded, if_pos hd, State.updateSlot, hsame, setSlot_self hlt]

end

section
variable (hd : how.isDone = false)
include hd

theorem orderEnded_clamp (hk : o.clamps) (hc : s.concerns .clamp k o) : orderEnded k tag o how s =
    ({ s with seq := { s.seq with clamp := .unknown } }, o.sources.map fun src => .endFor k tag o.kind src how) := by
  rw [orderEnded, hd, recordsUnknown_clamps s k hk, if_pos (hc.imp_left (sequenced_iff o).mpr)]; rfl

theorem orderEnded_gauge (hk : o.gauges) (hg : s.concerns .gauge k o) : orderEnded k tag o how s =
    ({ s with seq := { s.seq with gauge := .unknown } }, o.sources.map fun src => .endFor k tag o.kind src how) := by
  rw [orderEnded, hd, recordsUnknown_gauges s k hk, if_pos (hg.imp_left (sequenced_iff o).mpr)]; rfl

theorem orderEnded_unconcerned (hc : ¬(o.clamps ∧ s.concerns .clamp k o)) (hg : ¬(o.gauges ∧ s.concerns .gauge k o)) :
    orderEnded k tag o how s = (s, o.sources.map fun src => .endFor k tag o.kind src how) := by
  have hstands : s.recordsUnknown k o = s := by
    by_cases hcl : o.clamps
    · rw [recordsUnknown_clamps s k hcl, if_neg fun h => hc ⟨hcl, h.imp_left (sequenced_iff o).mp⟩]
    · by_cases hga : o.gauges
      · rw [recordsUnknown_gauges s k hga, if_neg fun h => hg ⟨hga, h.imp_left (sequenced_iff o).mp⟩]
      · exact recordsUnknown_others s k hcl hga
  rw [orderEnded, hd, hstands]; rfl

end

end

/-! ### What AUTO wants (R127, log 24) -/

theorem isAuto_iff (x : Slot) : x.isAuto = true ↔ ∃ c, x.config = some c ∧ c.lamp = .auto := by
  simp [Slot.isAuto, Option.any_eq_true]

theorem busy_iff (x : Slot) : x.busy = true ↔ ∃ o ∈ x.orders, o.sources ≠ [.lamp] := by
  simp [Slot.busy, List.any_eq_true]

/-- The slot follows AUTO and wants another value than it has wanted. -/
def Slot.wantsChange (x : Slot) : Prop := x.isAuto = true ∧ x.wanted ≠ x.wantedNow

theorem wantsChange_iff (x : Slot) : (x.isAuto && decide (x.wantedNow ≠ x.wanted)) = true ↔ x.wantsChange := by
  simp only [Slot.wantsChange, Bool.and_eq_true, decide_eq_true_eq, ne_comm]

section
variable {s : State}

theorem lampRule_first {k : Nat} (hk : k < s.slots.length) (hw : (s.slot k).wantsChange) (hb : ∀ j < k, ¬(s.slot j).wantsChange) :
    lampRule s = some (s.setSlot k ((s.slot k).want (s.slot k).wantedNow), []) := by
  have hfound : (s.slots.findIdx? fun x => x.isAuto && decide (x.wantedNow ≠ x.wanted)) = some k := by
    refine List.findIdx?_eq_some_iff_getElem.mpr ⟨hk, ?_, fun j hj => ?_⟩
    · rw [slot_of_getElem hk]; exact (wantsChange_iff _).mpr hw
    · rw [slot_of_getElem (Nat.lt_trans hj hk)]; exact mt (wantsChange_iff _).mp (hb j hj)
  rw [lampRule, hfound]; rfl

theorem lampRule_none (h : ∀ k < s.slots.length, ¬(s.slot k).wantsChange) : lampRule s = none := by
  have hnone : (s.slots.findIdx? fun x => x.isAuto && decide (x.wantedNow ≠ x.wanted)) = none := by
    refine List.findIdx?_eq_none_iff.mpr fun x hx => ?_
    obtain ⟨j, hj, rfl⟩ := List.getElem_of_mem hx
    rw [slot_of_getElem hj]
    exact Bool.eq_false_iff.mpr (mt (wantsChange_iff _).mp (h j hj))
  rw [lampRule, hnone]

end

/-- Settles O58: posting, sending, the slots' order, the frames, the ends, and the lamps, each case by its equation. -/
theorem orderIsPostedAndSent : Obligations.OrderIsPostedAndSent := by
  refine ⟨fun s k o => ?posting, fun s k hk => ?sending, fun s => ?order, fun s f => ?frames, fun s k tags => ?withdrawn,
    fun s k tag o how => ?ending, fun s => ?lamps⟩
  case posting =>
    intro x becomes drops mayGo
    refine ⟨postOrder_local, postOrder_room, fun hc ho hl => ?full, fun ho => ?stop⟩
    case full =>
      have full {e : Effect} (h : placeFull k o s = e) : perform (.post k o) s = e := (postOrder_full hc ho hl).trans h
      exact ⟨fun h => full (placeFull_layOrigin h),
        fun awaited h => ⟨fun hp => full (placeFull_waits h hp), fun older d younger hp hd hy => full (placeFull_drops h hp hd hy)⟩,
        fun answerTag h => full (placeFull_direct h)⟩
    case stop =>
      intro joined notHead
      have stop {e : Effect} (h : placeStop k o s = e) : perform (.post k o) s = e := (postOrder_stop ho).trans h
      refine ⟨fun a ha => stop (placeStop_announced ha), fun i ha hi hs => stop (placeStop_inFlight ha hi hs), fun ha hf => ?_⟩
      refine ⟨fun h rest hp hs => stop (placeStop_joinsHead ha hf hp hs),
        fun hh hi hs => stop (placeStop_announces ha hf hh hi hs), fun hh hs => ?_⟩
      have head {e : Effect} (h : headStop k o s = e) : perform (.post k o) s = e := stop ((placeStop_heads ha hf hh hs).trans h)
      exact ⟨fun hl => head (headStop_room hl), fun older d younger hl hp hd hy => head (headStop_drops hl hp hd hy)⟩
  case sending =>
    intro x timeout sends sendsLamp
    have hlamp (v : LampState) : some (s.sendLamp k v) = sendsLamp v := by
      rw [sendLamp_eq hk]
      exact apply_ite some _ _ _
    refine ⟨slotSend_busy, fun hi => ⟨slotSend_silent hi, slotSend_probing hi, fun hs hl => ?_, fun v hs hl => ?_,
      slotSend_idle hi, fun v hs hl hp => (slotSend_lamp hi hs hl hp).trans (hlamp v), fun o rest hs hp hl => ?_⟩⟩
    · rw [slotSend_faulted hi hs, hl]; rfl
    · rw [slotSend_faulted hi hs, hl]; exact hlamp v
    · exact (slotSend_head hi hs hp hl).trans (congrArg some (sendHead_eq hk o rest))
  case order => exact ⟨fun k u hk hu hb => sendRule_first hk hu hb, sendRule_none⟩
  case frames => exact ⟨handFrame_down f, handFrame_leaves f, handFrame_waits f⟩
  case withdrawn => exact ⟨_, rfl, List.filter_sublist, fun f => mem_withdraw⟩
  case ending =>
    intro x told sequenced clamps gauges
    exact ⟨fun on hd hk => orderEnded_enable tag hd hk, fun v hd hk hs => orderEnded_lamp tag hd hk hs,
      fun hlt hd he hl => orderEnded_others tag hd hlt he hl, fun hd hk hc => orderEnded_clamp tag hd hk hc,
      fun hd hk hg => orderEnded_gauge tag hd hk hg, fun hd hc hg => orderEnded_unconcerned tag hd hc hg, rfl, rfl⟩
  case lamps =>
    intro auto wants
    have hwants (x : Slot) : wants x = x.wantedNow := by
      cases hx : x.state with
      | ready => simp only [wants, Slot.wantedNow, hx, busy_iff]
      | _ => simp only [wants, Slot.wantedNow, hx]
    have hchange (x : Slot) : x.wantsChange ↔ auto x ∧ x.wanted ≠ wants x := by
      rw [Slot.wantsChange, isAuto_iff, hwants]
    have hstands {x : Slot} (h : auto x → x.wanted = wants x) : ¬x.wantsChange := fun hx =>
      ((hchange x).mp hx).2 (h ((hchange x).mp hx).1)
    refine ⟨fun k hk ha hw hb => ?_, fun h => lampRule_none fun k hk => hstands (h k hk)⟩
    rw [lampRule_first hk ((hchange _).mpr ⟨ha, hw⟩) fun j hj => hstands (hb j hj), hwants]; rfl

end Sys2Proof.Machine
end

section
/-! What the whole event of a report or of a timer expiry leaves as it stood (spec files 06, 08 and 10): the frame. -/

namespace Sys2Proof.Machine

/-! ### The frame of the timer expiries (R65, R100, R101, R115, R119, R162, R167, R168) -/

@[simp] theorem fillExpiry_untouched (s : State) : (fillExpiry s).1.untouched = s.untouched := by
  unfold fillExpiry; split <;> rfl

@[simp] theorem orderExpiry_untouched (k : Nat) (s : State) : (orderExpiry k s).1.untouched = s.untouched := by
  unfold orderExpiry; dsimp only; split
  · rfl
  · split
    · rfl
    · exact endFlight_untouched _ _ _

@[simp] theorem identExpiry_untouched (k : Nat) (s : State) : (identExpiry k s).1.untouched = s.untouched := by
  unfold identExpiry; dsimp only; split
  · split
    · exact (setSlot_untouched _ _ _).trans (withdraw_untouched _ _ _)
    · exact endFlight_untouched _ _ _
  · rfl

@[simp] theorem windowExpiry_untouched (s : State) : (windowExpiry s).1.untouched = s.untouched := by
  unfold windowExpiry; split
  · exact gate_untouched _ _
  · rfl

@[simp] theorem strokeExpiry_untouched (s : State) : (strokeExpiry s).1.untouched = s.untouched := by
  unfold strokeExpiry; split
  · exact strokeFails_untouched _ _
  · rfl

@[simp] theorem idleExpiry_untouched (s : State) : (idleExpiry s).1.untouched = s.untouched := by
  unfold idleExpiry; split <;> rfl

@[simp] theorem settleExpiry_untouched (s : State) : (settleExpiry s).1.untouched = s.untouched := by
  unfold settleExpiry; split
  · exact settled_untouched _
  · rfl

@[simp] theorem lockWaitExpiry_untouched (s : State) : (lockWaitExpiry s).1.untouched = s.untouched := by
  unfold lockWaitExpiry; split
  · exact startFails_untouched _
  · rfl

/-- A command that is one event keeps the frame where its own effect does. -/
theorem unlessReset_event_frame {prim : State → Effect} {s : State} (h : (prim s).1.untouched = s.untouched) :
    (unlessReset (event prim) s).frame = s.frame := by
  unfold unlessReset
  split
  · rfl
  · exact (event_frame prim s).trans (frame_of_untouched h)

/-! ### The frame of the reports (R113, R179, R184) -/

/-- The frame is that of the state before, but for the S-port's statistics. -/
def State.keepsButS (s t : State) : Prop := ∃ v, t.frame = State.frame { s with link := { s.link with sStats := v } }

theorem keepsButS_of_untouched {s t u : State} (h : s.keepsButS t) (hu : u.untouched = t.untouched) : s.keepsButS u := by
  obtain ⟨v, h⟩ := h
  exact ⟨v, (frame_of_untouched hu).trans h⟩

theorem frame_of_keepsButS {s t : State} (h : s.keepsButS t) :
    t.frame = State.frame { s with link := { s.link with sStats := t.link.sStats } } := by
  obtain ⟨v, h⟩ := h
  have hv : t.link.sStats = v := congrArg (fun f => f.2.2.2.2.2.2.2.2.2.2.1) h
  rw [hv]; exact h

theorem routeReport_keepsButS (node : Nat) (tag : Byte) (r : Report) (s : State) : s.keepsButS (routeReport node tag r s).1 := by
  unfold routeReport; dsimp only
  split
  · exact ⟨_, rfl⟩
  · exact keepsButS_of_untouched ⟨_, rfl⟩ (handReport_untouched _ _ _ _)

theorem event_keepsButS {prim : State → Effect} {s : State} (h : s.keepsButS (prim s).1) : s.keepsButS (event prim s) := by
  obtain ⟨v, h⟩ := h
  exact ⟨v, (event_frame prim s).trans h⟩

theorem reportArrives_keepsButS (node : Nat) (tag : Byte) (r : Report) (s : State) : s.keepsButS (reportArrives node tag r s) := by
  unfold reportArrives unlessReset
  split
  · exact ⟨_, rfl⟩
  · dsimp only
    split
    · exact ⟨_, rfl⟩
    · split
      · exact event_keepsButS (routeReport_keepsButS node tag r s)
      · exact event_keepsButS ⟨_, rfl⟩

theorem exec_reportCommand (node : Nat) (tag : Byte) (r : Report) (s : State) :
    exec (r.command node tag) s = .next (reportArrives node tag r s) := by cases r <;> rfl

/-- Settles O22: a report touches the S-port's statistics alone, an expiry nothing of the frame. -/
theorem reportsAndExpiriesKeepFrame : Obligations.ReportsAndExpiriesKeepFrame := by
  refine ⟨fun s t node tag r h => ?_, fun s t c hc h => ?_⟩
  · rw [exec_reportCommand, Host.Outcome.next.injEq] at h
    exact h ▸ frame_of_keepsButS (reportArrives_keepsButS node tag r s)
  · have keeps {prim : State → Effect} (hu : (prim s).1.untouched = s.untouched) (he : unlessReset (event prim) s = t) :
        t.frame = s.frame := he ▸ unlessReset_event_frame hu
    obtain rfl | ⟨k, rfl⟩ | ⟨k, rfl⟩ | rfl | rfl | rfl | rfl | rfl := hc
    · exact keeps (fillExpiry_untouched s) (Host.Outcome.next.inj h)
    · exact keeps (orderExpiry_untouched k s) (Host.Outcome.next.inj h)
    · exact keeps (identExpiry_untouched k s) (Host.Outcome.next.inj h)
    · exact keeps (windowExpiry_untouched s) (Host.Outcome.next.inj h)
    · exact keeps (strokeExpiry_untouched s) (Host.Outcome.next.inj h)
    · exact keeps (idleExpiry_untouched s) (Host.Outcome.next.inj h)
    · exact keeps (settleExpiry_untouched s) (Host.Outcome.next.inj h)
    · exact keeps (lockWaitExpiry_untouched s) (Host.Outcome.next.inj h)

end Sys2Proof.Machine
end

section
/-! What a report has set in its slot stands through its whole event (R121, R122, R124, R125): what a slot shows of its station is changed
by the reports, the timers and the ring themselves and by a LOAD_SLOT's write; no other work of an event touches it, and none of it leads
to such a write. One lemma per operation, up to a whole event; then the statement. -/

namespace Sys2Proof.Machine

/-! ### What a slot shows of its station -/

/-- The part of a slot's record that reports and probes set: its configuration, state and capabilities, and what the station last
reported. -/
def Slot.shown (x : Slot) : Option SlotConfig × SlotState × Option Caps × Option Position × Option GuardState × Option Byte :=
  (x.config, x.state, x.caps, x.position, x.guard, x.faultCode)

/-- Every piece of work but a LOAD_SLOT's write. -/
@[simp] def Task.keepsSlots : Task → Bool
  | .writeSlot _ _ => false
  | _ => true

/-- An effect on the state that leaves what its slots show and leads to no LOAD_SLOT's write. -/
abbrev State.calm (s : State) (e : Effect) : Prop :=
  e.1.slots.map Slot.shown = s.slots.map Slot.shown ∧ e.2.all Task.keepsSlots = true

/-- A slot that takes a record which shows the same leaves what the slots show. -/
theorem shown_setSlot {s : State} {k : Nat} {x : Slot} (h : x.shown = (s.slot k).shown) :
    (s.setSlot k x).slots.map Slot.shown = s.slots.map Slot.shown :=
  map_set_same _ _ _ _ fun y hy => by rw [h, State.slot, hy]; rfl

theorem calm_setSlot {s : State} {k : Nat} {x : Slot} {work : List Task} (h : x.shown = (s.slot k).shown)
    (hw : work.all Task.keepsSlots = true) : s.calm (s.setSlot k x, work) := ⟨shown_setSlot h, hw⟩

/-- A change of every slot's record that shows the same leaves what the slots show. -/
theorem shown_mapSlots {f : Slot → Slot} (l : List Slot) (h : ∀ x, (f x).shown = x.shown) :
    (l.map f).map Slot.shown = l.map Slot.shown := by
  rw [List.map_map]; exact List.map_congr_left fun x _ => h x

theorem shown_of_map {s t : State} (h : t.slots.map Slot.shown = s.slots.map Slot.shown) (k : Nat) :
    (t.slot k).shown = (s.slot k).shown := by
  have hk := congrArg (·[k]?) h
  simp only [List.getElem?_map] at hk
  unfold State.slot
  cases ht : t.slots[k]? <;> cases hs : s.slots[k]? <;> simp_all

/-! ### Work that an operation gives rise to -/

@[simp] theorem endTasks_keepSlots (k : Nat) (tag : Option Nat) (o : Order) (how : End) :
    (endTasks k tag o how).all Task.keepsSlots = true := by
  unfold endTasks moveEnds
  repeat' split
  all_goals cases o.lay? <;> rfl

@[simp] theorem postTo_keepSlots (s : State) (kind : StationKind) (o : OrderKind) (src : Source) :
    (s.postTo kind o src).all Task.keepsSlots = true := by
  unfold State.postTo; cases s.working kind <;> rfl

@[simp] theorem refusalTasks_keepSlots (n : Nat) (how : End) : (refusalTasks n how).all Task.keepsSlots = true := by
  unfold refusalTasks; split <;> rfl

@[simp] theorem turnAborted_keepSlots (o : OrderKind) (n : Nat) (halted : Bool) (s : State) :
    (turnAborted o n halted s).all Task.keepsSlots = true := by
  unfold turnAborted
  split
  · split <;> rfl
  · split <;> rfl
  · rfl

@[simp] theorem driveOrders_keepSlots (s : State) (on : Bool) : (s.driveOrders on).all Task.keepsSlots = true := by
  simp only [State.driveOrders, List.all_append, postTo_keepSlots, Bool.and_self]

/-! ### Orders: posting and sending (R111, R112, R116, R127) -/

@[simp] theorem sendOrder_shown (s : State) (k : Nat) (o : Order) (ms : Nat) :
    (s.sendOrder k o ms).slots.map Slot.shown = s.slots.map Slot.shown := shown_setSlot rfl

theorem headStop_calm (k : Nat) (o : Order) (s : State) : s.calm (headStop k o s) := by
  unfold headStop
  dsimp only
  split
  · exact calm_setSlot rfl rfl
  · split
    · exact calm_setSlot rfl (endTasks_keepSlots _ _ _ _)
    · exact calm_setSlot rfl rfl

theorem placeStop_calm (k : Nat) (o : Order) (s : State) : s.calm (placeStop k o s) := by
  have announces : s.calm (announceStop k o s, []) := ⟨shown_setSlot rfl, rfl⟩
  have heads : s.calm (headStop k o s) := headStop_calm k o s
  unfold placeStop
  dsimp only
  split
  · exact calm_setSlot rfl rfl
  · split
    · exact calm_setSlot rfl rfl
    · split
      · exact announces
      · exact heads
  · split
    · exact calm_setSlot rfl rfl
    · split
      · exact calm_setSlot rfl rfl
      · split
        · exact announces
        · exact heads
  · split
    · exact calm_setSlot rfl rfl
    · exact heads
  · exact heads

theorem placeFull_calm (k : Nat) (o : Order) (s : State) : s.calm (placeFull k o s) := by
  unfold placeFull
  dsimp only
  split
  · exact calm_setSlot rfl rfl
  · split
    · split
      · exact calm_setSlot rfl (endTasks_keepSlots _ _ _ _)
      · exact calm_setSlot rfl rfl
    · exact ⟨rfl, rfl⟩

theorem postOrder_calm (k : Nat) (o : Order) (s : State) : s.calm (postOrder k o s) := by
  unfold postOrder
  dsimp only
  split
  · exact ⟨rfl, endTasks_keepSlots _ _ _ _⟩
  · split
    · exact placeStop_calm k o s
    · split
      · exact calm_setSlot rfl rfl
      · exact placeFull_calm k o s

theorem sendLamp_shown (s : State) (k : Nat) (v : LampState) : (s.sendLamp k v).slots.map Slot.shown = s.slots.map Slot.shown := by
  unfold State.sendLamp
  dsimp only
  split
  · exact shown_setSlot rfl
  · exact (sendOrder_shown _ _ _ _).trans (shown_setSlot rfl)

theorem sendHead_shown (s : State) (k : Nat) (o : Order) (rest : List Order) :
    (s.sendHead k o rest).slots.map Slot.shown = s.slots.map Slot.shown :=
  (sendOrder_shown _ _ _ _).trans (shown_setSlot rfl)

theorem sendReady_shown {s u : State} {k : Nat} (h : s.sendReady k = some u) : u.slots.map Slot.shown = s.slots.map Slot.shown := by
  unfold State.sendReady at h
  dsimp only at h
  split at h
  · cases h
  · cases h; exact sendLamp_shown _ _ _
  · cases h; exact sendHead_shown _ _ _ _
  · split at h
    · cases h; exact sendHead_shown _ _ _ _
    · cases h; exact sendLamp_shown _ _ _

theorem slotSend_shown {s u : State} {k : Nat} (h : s.slotSend k = some u) : u.slots.map Slot.shown = s.slots.map Slot.shown := by
  unfold State.slotSend at h
  dsimp only at h
  split at h
  · cases h
  · split at h
    · exact sendReady_shown h
    · cases h; exact sendOrder_shown _ _ _ _
    · obtain ⟨v, -, rfl⟩ := Option.map_eq_some_iff.mp h
      exact sendLamp_shown _ _ _
    · cases h
    · cases h

/-! ### Lays (R1, R14 to R23, R137) -/

@[simp] theorem occupy_slots (s : State) (i : ZoneId) (n : Nat) : (s.occupy i n).slots = s.slots := by simp [State.occupy]

@[simp] theorem vacate_slots (s : State) (i : ZoneId) (n : Nat) : (s.vacate i n).slots = s.slots := by simp [State.vacate]

@[simp] theorem takeDeferred_slots (s : State) : s.takeDeferred.slots = s.slots := by
  unfold State.takeDeferred; split <;> simp

@[simp] theorem drain_slots (n : Nat) (s : State) : (drain n s).slots = s.slots := by simp [drain]

@[simp] theorem lower_slots (n : Nat) (s : State) : (lower n s).slots = s.slots := by simp [lower]

@[simp] theorem freeLay_slots (s : State) (n : Nat) (l : Lay) : (s.freeLay n l).slots = s.slots := rfl

@[simp] theorem finishTest_calm (n : Nat) (s : State) : s.calm (finishTest n s) := by
  unfold finishTest
  repeat' split
  all_goals constructor <;> simp

@[simp] theorem finishAbandoned_calm (n : Nat) (s : State) : s.calm (finishAbandoned n s) := by
  constructor <;> simp [finishAbandoned]

@[simp] theorem takeAbandon_calm (n : Nat) (s : State) : s.calm (takeAbandon n s) := by
  unfold takeAbandon; split <;> constructor <;> simp

@[simp] theorem moveEnded_calm (n : Nat) (s : State) : s.calm (moveEnded n s) := by
  unfold moveEnded; split <;> constructor <;> simp

@[simp] theorem bindLay_calm (n : Nat) (e : JobEntry) (s : State) : s.calm (bindLay n e s) := by
  unfold bindLay; dsimp only
  repeat' split
  all_goals constructor <;> simp

@[simp] theorem searchMap_calm (n job : Nat) (s : State) : s.calm (searchMap n job s) := by
  unfold searchMap; split <;> exact ⟨rfl, rfl⟩

@[simp] theorem releaseLay_calm (n : Nat) (s : State) : s.calm (releaseLay n s) := by
  unfold releaseLay; dsimp only
  repeat' split
  all_goals constructor <;> simp

@[simp] theorem recheckFailed_calm (n : Nat) (kind : EventKind) (d : Nat) (s : State) : s.calm (recheckFailed n kind d s) := by
  unfold recheckFailed; split <;> constructor <;> simp

/-! ### Steps (R34 to R48) -/

@[simp] theorem giveUp_calm (n : Nat) (s : State) : s.calm (giveUp n s) := by
  unfold giveUp; split <;> constructor <;> simp

@[simp] theorem checkFails_calm (n : Nat) (kind : EventKind) (s : State) : s.calm (checkFails n kind s) := by
  constructor <;> simp [checkFails]

@[simp] theorem execCut_calm (n : Nat) (st : Step) (x : Nat) (s : State) : s.calm (execCut n st x s) := by
  unfold execCut; split <;> constructor <;> simp

@[simp] theorem execStep_calm (n : Nat) (l : Lay) (st : Step) (s : State) : s.calm (execStep n l st s) := by
  unfold execStep
  repeat' split
  all_goals constructor <;> simp

@[simp] theorem evalStep_calm (n : Nat) (l : Lay) (st : Step) (s : State) : s.calm (evalStep n l st s) := by
  unfold evalStep
  repeat' split
  all_goals constructor <;> simp

@[simp] theorem execUnheld_calm (n : Nat) (s : State) : s.calm (execUnheld n s) := by
  unfold execUnheld
  repeat' split
  all_goals constructor <;> simp

@[simp] theorem drainUnheld_calm (n : Nat) (s : State) : s.calm (drainUnheld n s) := by
  unfold drainUnheld; split <;> constructor <;> simp

/-! ### Delivery and the arbiter (R71 to R80, R131 to R136) -/

@[simp] theorem handOver_slots (s : State) (n : Nat) (c : PieceClass) (d w : Nat) (q : PieceKind) :
    (s.handOver n c d w q).slots = s.slots := rfl

@[simp] theorem handOverInHand_slots (s : State) : s.handOverInHand.slots = s.slots := by
  unfold State.handOverInHand; split <;> rfl

@[simp] theorem unpost_slots (s : State) (i : Nat) : (s.unpost i).slots = s.slots := rfl

@[simp] theorem deliverEnds_calm (n i : Nat) (how : End) (s : State) : s.calm (deliverEnds n i how s) := by
  unfold deliverEnds
  repeat' split
  all_goals constructor <;> simp

@[simp] theorem grantMove_calm (m : ZoneId × ZoneId) (n : Nat) (s : State) : s.calm (grantMove m n s) := by
  constructor <;> simp [grantMove]

@[simp] theorem presentEnds_calm (n : Nat) (how : End) (s : State) : s.calm (presentEnds n how s) := by
  unfold presentEnds; split <;> constructor <;> simp

@[simp] theorem lowerEnds_calm (n : Nat) (how : End) (s : State) : s.calm (lowerEnds n how s) := by
  unfold lowerEnds; split <;> constructor <;> simp

@[simp] theorem moveLayEnds_calm (a b : ZoneId) (n : Nat) (how : End) (s : State) : s.calm (moveLayEnds a b n how s) := by
  unfold moveLayEnds
  repeat' split
  all_goals constructor <;> simp

@[simp] theorem jogEnds_calm (n : Nat) (how : End) (s : State) : s.calm (jogEnds n how s) := by
  unfold jogEnds; split <;> constructor <;> simp

@[simp] theorem arbiterEnds_calm (o : OrderKind) (n : Nat) (how : End) (s : State) : s.calm (arbiterEnds o n how s) := by
  unfold arbiterEnds; split <;> constructor <;> simp

/-! ### The gate (R97 to R102) -/

@[simp] theorem issuePermit_calm (n : Nat) (s : State) : s.calm (issuePermit n s) := by
  unfold issuePermit; split <;> constructor <;> simp

@[simp] theorem lockOutGate_calm (s : State) : s.calm (lockOutGate s) := by
  unfold lockOutGate; split <;> constructor <;> simp

@[simp] theorem strokeFails_calm (d : Nat) (s : State) : s.calm (strokeFails d s) := by
  constructor <;> simp [strokeFails]

@[simp] theorem unbidden_calm (d : Nat) (s : State) : s.calm (unbidden d s) := by
  constructor <;> simp [unbidden]

@[simp] theorem lockOutOrder_calm (s : State) : s.calm (lockOutOrder s) := by
  constructor <;> simp [lockOutOrder]

@[simp] theorem commitCut_slots (n : Nat) (s : State) : (commitCut n s).slots = s.slots := by
  unfold commitCut; split <;> rfl

@[simp] theorem strokeDone_calm (s : State) : s.calm (strokeDone s) := by
  unfold strokeDone; dsimp only
  repeat' split
  all_goals constructor <;> simp

@[simp] theorem strokeEndsOpen_calm (n tag : Nat) (how : End) (s : State) : s.calm (strokeEndsOpen n tag how s) := by
  unfold strokeEndsOpen; split <;> constructor <;> simp

@[simp] theorem strokeEndsStroke_calm (how : End) (s : State) : s.calm (strokeEndsStroke how s) := by
  unfold strokeEndsStroke; split <;> constructor <;> simp

@[simp] theorem gateEnds_calm (o : OrderKind) (k n : Nat) (tag : Option Nat) (how : End) (s : State) :
    s.calm (gateEnds o k n tag how s) := by
  unfold gateEnds
  repeat' split
  all_goals constructor <;> simp

/-! ### The sequencer (R87 to R95) -/

@[simp] theorem sequence_calm (s : State) (kind : StationKind) (o : OrderKind) (n : Nat) : s.calm (s.sequence kind o n) := by
  constructor <;> simp [State.sequence]

@[simp] theorem sequenceMove_calm (s : State) (p n : Nat) : s.calm (s.sequenceMove p n) := by
  constructor <;> simp [State.sequenceMove]

@[simp] theorem beginPositioning_calm (n : Nat) (l : Lay) (s : State) : s.calm (beginPositioning n l s) := by
  unfold beginPositioning
  repeat' split
  all_goals constructor <;> simp

@[simp] theorem releasingEnds_slots (n : Nat) (s : State) : (releasingEnds n s).slots = s.slots := by simp [releasingEnds]

@[simp] theorem beginReleasing_calm (n : Nat) (s : State) : s.calm (beginReleasing n s) := by
  unfold beginReleasing; split <;> constructor <;> simp

@[simp] theorem beginTurning_calm (n : Nat) (l : Lay) (s : State) : s.calm (beginTurning n l s) := by
  unfold beginTurning; dsimp only
  repeat' split
  all_goals constructor <;> simp

@[simp] theorem beginPushing_calm (n : Nat) (s : State) : s.calm (beginPushing n s) := by
  unfold beginPushing; split <;> constructor <;> simp

@[simp] theorem markBegun_slots (s : State) (p : Phase) : (s.markBegun p).slots = s.slots := rfl

@[simp] theorem windBack_calm (n : Nat) (s : State) : s.calm (windBack n s) := by
  unfold windBack; split <;> constructor <;> simp

@[simp] theorem recordsUnknown_slots (s : State) (k : Nat) (o : Order) : (s.recordsUnknown k o).slots = s.slots := by
  unfold State.recordsUnknown; dsimp only
  (repeat' split) <;> rfl

@[simp] theorem releaseDone_slots (n : Nat) (s : State) : (releaseDone n s).slots = s.slots := by
  unfold releaseDone; split <;> simp

@[simp] theorem turnDone_slots (n : Nat) (f : Lay → Lay) (s : State) : (turnDone n f s).slots = s.slots := by simp [turnDone]

@[simp] theorem pushOutDone_calm (n : Nat) (s : State) : s.calm (pushOutDone n s) := by
  unfold pushOutDone; split <;> constructor <;> simp

@[simp] theorem sequenceDone_calm (o : OrderKind) (n : Nat) (halted : Bool) (s : State) : s.calm (sequenceDone o n halted s) := by
  unfold sequenceDone; split <;> constructor <;> simp

@[simp] theorem sequenceEnds_calm (o : OrderKind) (n : Nat) (halted : Bool) (how : End) (s : State) :
    s.calm (sequenceEnds o n halted how s) := by
  unfold sequenceEnds
  repeat' split
  all_goals constructor <;> simp

/-! ### Cell Control (R159 to R168) -/

@[simp] theorem enterState_calm (st : CellState) (s : State) : s.calm (enterState st s) := by
  unfold enterState
  repeat' split
  all_goals constructor <;> simp

@[simp] theorem stopAsked_calm (s : State) : s.calm (stopAsked s) := by
  constructor <;> simp [stopAsked]

@[simp] theorem haltLay_slots (s : State) : (haltLay s).slots = s.slots := by
  unfold haltLay; split <;> simp

@[simp] theorem haltTable_calm (s : State) : s.calm (haltTable s) := by
  unfold haltTable; split <;> constructor <;> simp

@[simp] theorem haltStop_calm (s : State) : s.calm (haltStop s) := by
  constructor <;> simp [haltStop]

@[simp] theorem startLockWait_slots (s : State) : s.startLockWait.slots = s.slots := rfl

@[simp] theorem settled_calm (s : State) : s.calm (settled s) := by
  unfold Machine.settled; split <;> exact ⟨rfl, rfl⟩

@[simp] theorem parkTest_calm (s : State) : s.calm (parkTest s) := by
  unfold parkTest; split <;> exact ⟨rfl, rfl⟩

@[simp] theorem takeCopy_calm (c : Copy) (s : State) : s.calm (takeCopy c s) := by
  unfold takeCopy; split <;> exact ⟨rfl, rfl⟩

/-! ### Events and halts (R117, R142 to R150, R162, R168) -/

theorem mapSources_shown (f : Source → Source) (x : Slot) : (x.mapSources f).shown = x.shown := rfl

theorem detachCell_shown (s : State) : s.detachCell.slots.map Slot.shown = s.slots.map Slot.shown :=
  shown_mapSlots s.slots (mapSources_shown Source.detach)

@[simp] theorem startFails_calm (s : State) : s.calm (startFails s) := ⟨detachCell_shown s, rfl⟩

@[simp] theorem holdByEvent_calm (n : Nat) (kind : EventKind) (d : Nat) (s : State) : s.calm (holdByEvent n kind d s) := by
  unfold holdByEvent
  repeat' split
  all_goals constructor <;> simp

theorem haltCell_calm (cause : EventRecord) (s : State) : s.calm (haltCell cause s) :=
  ⟨(shown_mapSlots (f := fun x => { x with inFlight := x.inFlight.map fun i => { i with order := i.order.mapSources Source.markHalt } })
    _ fun _ => rfl).trans (detachCell_shown s), rfl⟩

@[simp] theorem escalate_calm (c : EventClass) (kind : EventKind) (j : Subject) (d : Nat) (s : State) :
    s.calm (escalate c kind j d s) := by
  unfold escalate
  split
  · exact holdByEvent_calm _ _ _ s
  · split
    · exact haltCell_calm _ s
    · exact ⟨rfl, rfl⟩
  · exact ⟨rfl, rfl⟩

theorem takeEvent_calm (kind : EventKind) (j : Subject) (d : Nat) (s : State) : s.calm (takeEvent kind j d s) :=
  escalate_calm _ kind j d (s.record kind j d)

theorem haltDrop_calm (s : State) : s.calm (haltDrop s) := by
  refine ⟨shown_mapSlots s.slots fun _ => rfl, ?_⟩
  simp [haltDrop]

theorem wakeTest_calm (s : State) : s.calm (wakeTest s) := by
  unfold wakeTest
  split
  · exact startFails_calm s
  · split <;> constructor <;> simp

@[simp] theorem cellEnds_calm (tag : Option Nat) (how : End) (s : State) : s.calm (cellEnds tag how s) := by
  unfold cellEnds
  repeat' split
  all_goals constructor <;> simp

/-! ### The end of an order (R113, R178) -/

theorem orderDone_shown (o : Order) (x : Slot) : (Slot.orderDone o x).shown = x.shown := by
  unfold Slot.orderDone
  split
  · rfl
  · split <;> rfl
  · rfl

theorem orderEnded_calm (k : Nat) (tag : Option Nat) (o : Order) (how : End) (s : State) : s.calm (orderEnded k tag o how s) := by
  have hwork : (o.sources.map fun src => Task.endFor k tag o.kind src how).all Task.keepsSlots = true := by simp
  unfold orderEnded
  split
  · exact ⟨shown_setSlot (orderDone_shown o _), hwork⟩
  · exact ⟨by simp, hwork⟩

theorem endFor_calm (k : Nat) (tag : Option Nat) (o : OrderKind) (src : Source) (how : End) (s : State) :
    s.calm (endFor k tag o src how s) := by
  unfold endFor
  split
  · exact sequenceEnds_calm _ _ _ _ s
  · exact arbiterEnds_calm _ _ _ s
  · exact gateEnds_calm _ _ _ _ _ s
  · exact deliverEnds_calm _ _ _ s
  · split
    · exact cellEnds_calm _ _ s
    · exact ⟨rfl, rfl⟩
  · exact ⟨rfl, rfl⟩
  · exact ⟨rfl, rfl⟩

/-! ### What waits for a condition -/

section
variable {s : State} {e : Effect}

theorem beginPhase_calm {n : Nat} {l : Lay} {p : Phase} (h : beginPhase n l p s = some e) : s.calm e := by
  unfold beginPhase at h
  split at h <;> cases h
  · exact beginPositioning_calm n l s
  · exact sequence_calm s _ _ n
  · exact beginReleasing_calm n s
  · exact beginTurning_calm n l s
  · exact beginPushing_calm n s

theorem stoppingPhase_calm {n : Nat} {l : Lay} {p : Phase} (h : stoppingPhase n l p s = some e) : s.calm e := by
  unfold stoppingPhase at h
  split at h
  · cases h; exact windBack_calm n s
  · cases h; exact windBack_calm n s
  · split at h
    · cases h
    · cases h; exact windBack_calm n s
  all_goals
    split at h
    · exact beginPhase_calm h
    · cases h

theorem deliverRule_calm (h : deliverRule s = some e) : s.calm e := by
  unfold deliverRule at h
  split at h
  · split at h <;> cases h
    exact ⟨rfl, rfl⟩
  · cases h

theorem boundaryRule_calm (h : boundaryRule s = some e) : s.calm e := by
  obtain ⟨n, -, rfl⟩ := Option.map_eq_some_iff.mp h
  split
  · exact takeAbandon_calm n s
  · constructor <;> simp

theorem lowerRule_calm (h : lowerRule s = some e) : s.calm e := by
  unfold lowerRule at h
  split at h
  · cases h
  · split at h
    · cases h; constructor <;> simp
    · split at h <;> cases h
      exact ⟨rfl, rfl⟩

theorem fillRule_calm (h : fillRule s = some e) : s.calm e := by
  unfold fillRule at h
  split at h
  · split at h <;> cases h
    exact ⟨rfl, rfl⟩
  · cases h
  · cases h; exact ⟨rfl, rfl⟩

theorem jogRule_calm (h : jogRule s = some e) : s.calm e := by
  unfold jogRule at h
  split at h
  · cases h
  · dsimp only at h
    split at h
    · cases h; constructor <;> simp
    · split at h
      · cases h; constructor <;> simp
      · split at h <;> cases h
        exact ⟨rfl, rfl⟩

theorem begunRule_calm (h : begunRule s = some e) : s.calm e := by
  unfold begunRule at h
  split at h <;> cases h
  exact ⟨rfl, rfl⟩

theorem phaseRule_calm (h : phaseRule s = some e) : s.calm e := by
  unfold phaseRule at h
  split at h
  · cases h
  · split at h
    · cases h
    · split at h
      · obtain ⟨p, -, h⟩ := Option.bind_eq_some_iff.mp h
        split at h
        · exact beginPhase_calm (s := s.markBegun p) h
        · split at h
          · exact stoppingPhase_calm h
          · cases h
      · cases h

theorem stepRule_calm (h : stepRule s = some e) : s.calm e := by
  unfold stepRule at h
  split at h
  · cases h
  · split at h
    · cases h
    · split at h
      · split at h <;> cases h
        · exact evalStep_calm _ _ _ s
        · exact ⟨rfl, rfl⟩
      · cases h

theorem presentRule_calm (h : presentRule s = some e) : s.calm e := by
  unfold presentRule at h
  split at h
  · split at h
    · split at h <;> cases h
      constructor <;> simp
    · cases h
  · cases h

theorem permitOrGrantRule_calm (h : permitOrGrantRule s = some e) : s.calm e := by
  unfold permitOrGrantRule at h
  split at h <;> cases h
  · exact issuePermit_calm _ s
  · exact grantMove_calm _ _ s
  · split
    · exact issuePermit_calm _ { s with choices := s.choices + 1 }
    · exact grantMove_calm _ _ { s with choices := s.choices + 1 }

theorem cellRule_calm (h : cellRule s = some e) : s.calm e := by
  unfold cellRule at h
  (repeat' split at h) <;> cases h
  all_goals constructor <;> simp

theorem idleRule_calm (h : idleRule s = some e) : s.calm e := by
  unfold idleRule at h
  (repeat' split at h) <;> cases h
  all_goals exact ⟨rfl, rfl⟩

theorem lampRule_calm (h : lampRule s = some e) : s.calm e := by
  unfold lampRule at h
  split at h <;> cases h
  exact calm_setSlot rfl rfl

theorem sendRule_calm (h : sendRule s = some e) : s.calm e := by
  obtain ⟨u, hu, rfl⟩ := Option.map_eq_some_iff.mp h
  obtain ⟨k, -, hk⟩ := List.exists_of_findSome?_eq_some hu
  exact ⟨slotSend_shown hk, rfl⟩

end

theorem settleRules_calm {s : State} {e : Effect} : ∀ r ∈ settleRules, r s = some e → s.calm e := by
  simp only [settleRules, List.forall_mem_cons, List.not_mem_nil, false_imp_iff, implies_true, and_true]
  exact ⟨deliverRule_calm, boundaryRule_calm, lowerRule_calm, fillRule_calm, jogRule_calm, begunRule_calm, phaseRule_calm,
    stepRule_calm, presentRule_calm, permitOrGrantRule_calm, cellRule_calm, idleRule_calm, lampRule_calm, sendRule_calm⟩

theorem settle_calm (s : State) : s.calm (settle s) := by
  unfold settle
  split
  · rename_i t work h
    obtain ⟨r, hr, h⟩ := List.exists_of_findSome?_eq_some h
    obtain ⟨hslots, hwork⟩ := settleRules_calm r hr h
    exact ⟨hslots, by simp [List.all_append, hwork]⟩
  · exact ⟨rfl, rfl⟩

/-! ### A whole event -/

/-- Every piece of work but a LOAD_SLOT's write leaves what the slots show and leads to no such write. -/
theorem perform_calm (t : Task) (ht : t.keepsSlots = true) (s : State) : s.calm (perform t s) := by
  cases t with
  | writeSlot k c => cases ht
  | raise kind j d => exact takeEvent_calm kind j d s
  | haltTable => exact haltTable_calm s
  | haltDrop => exact haltDrop_calm s
  | haltStop => exact haltStop_calm s
  | ended k tag o how => exact orderEnded_calm k tag o how s
  | endFor k tag kind src how => exact endFor_calm k tag kind src how s
  | post k o => exact postOrder_calm k o s
  | moveEnded n => exact moveEnded_calm n s
  | giveUp n => exact giveUp_calm n s
  | execUnheld n => exact execUnheld_calm n s
  | drainUnheld n => exact drainUnheld_calm n s
  | finishTest n => exact finishTest_calm n s
  | unbidden d => exact unbidden_calm d s
  | lockOutOrder => exact lockOutOrder_calm s
  | enter st => exact enterState_calm st s
  | parkTest => exact parkTest_calm s
  | wakeTest => exact wakeTest_calm s
  | copy c => exact takeCopy_calm c s
  | bind n e => exact bindLay_calm n e s
  | fillEnds => exact ⟨rfl, rfl⟩
  | release n => exact releaseLay_calm n s
  | recheckFailed n kind d => exact recheckFailed_calm n kind d s
  | stopAsked => exact stopAsked_calm s
  | settle => exact settle_calm s

theorem drainAgenda_shown (n : Nat) (ts : List Task) (s : State) (h : ts.all Task.keepsSlots = true) :
    (drainAgenda n ts s).slots.map Slot.shown = s.slots.map Slot.shown := by
  induction n generalizing ts s with
  | zero => cases ts <;> rfl
  | succ n ih =>
    cases ts with
    | nil => rfl
    | cons t ts =>
      obtain ⟨ht, hts⟩ := Bool.and_eq_true_iff.mp h
      obtain ⟨hslots, hwork⟩ := perform_calm t ht s
      exact (ih _ _ (by rw [List.all_append, hwork, hts]; rfl)).trans hslots

/-- An event without a LOAD_SLOT's write among its work leaves what its own effect has left the slots to show. -/
theorem after_shown {s : State} {work : List Task} (ha : s.agenda = []) (hw : work.all Task.keepsSlots = true) (k : Nat) :
    ((s.after work).slot k).shown = (s.slot k).shown := by
  refine shown_of_map ?_ k
  rw [State.after, takeFrame_slots, complete]
  exact drainAgenda_shown _ _ _ (by simp [ha, hw])

theorem copyWork_keepSlots (s : State) (k node : Nat) (tag : Byte) (r : Report) :
    (s.copyWork k node tag r).all Task.keepsSlots = true := by
  unfold State.copyWork; split <;> rfl

theorem lostTasks_keepSlots (k : Nat) (x : Slot) : (x.lostTasks k).all Task.keepsSlots = true := by
  unfold Slot.lostTasks
  cases x.inFlight <;> cases x.announced <;> simp

theorem slotAt_lt {s : State} {node k : Nat} (h : s.slotAt node = some k) : k < s.slots.length := by
  obtain ⟨hk, -⟩ := List.findIdx?_eq_some_iff_getElem.mp h
  exact hk

/-- A command that writes a slot's record before its work leaves the slot to show what was written. -/
theorem shown_of_exec {s u t : State} {c : Instr} {k : Nat} {x : Slot} {work : List Task} (ha : u.agenda = [])
    (hk : k < u.slots.length) (he : exec c s = .next ((u.setSlot k x).after work)) (hw : work.all Task.keepsSlots = true)
    (ht : exec c s = .next t) : (t.slot k).shown = x.shown := by
  obtain rfl : (u.setSlot k x).after work = t := Host.Outcome.next.inj (he.symm.trans ht)
  rw [after_shown (s := u.setSlot k x) ha hw, slot_setSlot, if_pos ⟨rfl, hk⟩]

theorem shown_eq_iff (x y : Slot) : x.shown = y.shown ↔ x.config = y.config ∧ x.state = y.state ∧ x.caps = y.caps ∧
    x.position = y.position ∧ x.guard = y.guard ∧ x.faultCode = y.faultCode := by
  simp [Slot.shown]

/-- Settles O21: the record a report writes, as its own equation gives it, and the whole event after it. -/
theorem reportedValuesStand : Obligations.ReportedValuesStand := by
  intro s t node k tag hh ha
  have hk : k < s.slots.length := slotAt_lt hh.2.2.2
  have copies (r : Report) : (s.copyWork k node tag r).all Task.keepsSlots = true := copyWork_keepSlots s k node tag r
  obtain ⟨hpos, hguard, -⟩ := posAndGuardStateSetSlot s node k tag hh
  refine ⟨fun value h => ?_, fun isOpen locked hkind h => ?_, fun code h => ?_, fun h => ?_⟩
  · have hshown := shown_of_exec (u := s.reported) ha hk (hpos value) (copies _) h
    obtain ⟨-, -, -, hposition, -⟩ := (shown_eq_iff _ _).mp hshown
    exact hposition
  · have hshown := shown_of_exec (u := s.reported) ha hk (hguard isOpen locked hkind) ?_ h
    · obtain ⟨-, -, -, -, hset, -⟩ := (shown_eq_iff _ _).mp hshown
      exact hset
    · rw [List.all_append, copies]
      split
      · rfl
      · split <;> rfl
  · have hshown := shown_of_exec (u := s.reported) ha hk (faultFaultsSlot s node k tag code hh) (copies (.fault code)) h
    obtain ⟨hconfig, hstate, -, -, -, hcode⟩ := (shown_eq_iff _ _).mp hshown
    refine ⟨hcode, ?_, hconfig⟩
    rw [hstate]
    dsimp only
    split
    · simp
    · rename_i hs; exact fun hr => hs (.inl hr)
  · have hdown := exec_report_after (tag := tag) (r := .presence false) hh (takePresence_down k s.reported)
    have hshown := shown_of_exec (u := s.reported.withdraw k _) ha hk hdown ?_ h
    · obtain ⟨-, hstate, hcaps, hposition, hset, -⟩ := (shown_eq_iff _ _).mp hshown
      exact ⟨hstate, hposition, hset, hcaps⟩
    · rw [List.all_append, List.all_append, lostTasks_keepSlots, copies]
      split <;> rfl

end Sys2Proof.Machine
end

section
/-! The Delivery Unit: TAKE_DELIVERY and how a lay finishes, the handover of a piece, the posting of its DELIVER and the ends of that
order. One equation for each case of the unit's functions, then the statements put together from them. -/

namespace Sys2Proof.Machine

/-! ### TAKE_DELIVERY (R139) -/

/-- A TAKE_DELIVERY request is answered as `doTakeDelivery` answers it. -/
theorem takeDelivery_arrives {s : State} (h : s.awaitsRequest) (tag : Byte) {a : Answer} (ha : doTakeDelivery s.taking = a) :
    exec (.takeDelivery tag) s = .next (a.state.answered tag .takeDelivery a.result a.body) := by
  subst ha
  exact request_arrives tag .takeDelivery (by simp [encodeRequest, requestArgs]) h parseRequest_takeDelivery

/-- The oldest lay of the finish queue leaves it, and its record is freed. -/
theorem finishQueued_cons {s : State} {n : Nat} {more : List Nat} {l : Lay} (hq : s.delivery.finishQueue = n :: more)
    (hl : s.lay? n = some l) :
    s.finishQueued = State.freeLay { s with delivery := { s.delivery with finishQueue := more } } n l := by
  simp only [State.finishQueued, hq, hl]

theorem doTakeDelivery_empty {s : State} (h : s.delivery.records = []) : doTakeDelivery s = refuse .empty s := by
  rw [doTakeDelivery, h]

section
variable {s : State} {d : Summary} {rest : List Summary} (hr : s.delivery.records = d :: rest)
include hr

/-- With no lay waiting, the records behind the head move up one place. -/
theorem doTakeDelivery_noneWaits (hq : s.delivery.finishQueue = []) : doTakeDelivery s =
    ⟨State.worked { s with delivery := { s.delivery with records := rest } } [], .ok, summaryBytes d⟩ := by
  simp only [doTakeDelivery, hr, State.finishQueued, hq, State.worked]

/-- The oldest waiting lay takes the place that the head record frees. -/
theorem doTakeDelivery_finishesOldest {n : Nat} {more : List Nat} {l : Lay} (hq : s.delivery.finishQueue = n :: more)
    (hl : s.lay? n = some l) : doTakeDelivery s =
    ⟨State.worked { s with
        delivery := { s.delivery with records := rest ++ [l.summary n], finishQueue := more }
        lays := s.lays.set n none
        order := s.order.filter fun m => decide (m ≠ n) } [], .ok, summaryBytes d⟩ := by
  have hfinish := finishQueued_cons (s := { s with delivery := { s.delivery with records := rest } }) hq hl
  simp only [doTakeDelivery, hr, hfinish, State.freeLay, State.worked]

end

/-! ### How a lay finishes (R137, R138) -/

/-- A lay is ready to finish and does not wait already: FINISHING, or HELD from it, with no piece left (R137, log 53). -/
def State.readyToFinish (s : State) (n : Nat) (l : Lay) : Prop :=
  l.eff = .finishing ∧ n ∉ s.delivery.finishQueue ∧ ∀ p ∈ s.delivery.pieces, p.lay ≠ n

theorem not_readyToFinish_iff (s : State) (n : Nat) (l : Lay) : ¬s.readyToFinish n l ↔
    l.eff ≠ .finishing ∨ n ∈ s.delivery.finishQueue ∨ s.delivery.pieces.any (fun p => decide (p.lay = n)) = true := by
  simp only [State.readyToFinish, Classical.not_and_iff_not_or_not, Classical.not_not, Classical.not_forall, List.any_eq_true,
    decide_eq_true_eq, exists_prop, ne_eq]

section
variable {s : State} {n : Nat} {l : Lay} (hl : s.lay? n = some l)
include hl

theorem finishTest_notReady (h : ¬s.readyToFinish n l) : finishTest n s = (s, []) := by
  simp only [finishTest, hl]
  exact if_pos ((not_readyToFinish_iff s n l).mp h)

/-- A ready lay goes by the room in the Delivery List. -/
theorem finishTest_ready (h : s.readyToFinish n l) : finishTest n s =
    if s.delivery.records.length < 16 ∧ s.delivery.finishQueue = [] then
      (s.freeLay n l, if s.delivery.records = [] then [.raise .deliveryReady (.job l.job) n] else [])
    else ({ s with delivery := { s.delivery with finishQueue := s.delivery.finishQueue ++ [n] } },
      [.raise .deliveryFull (.lay n) (s.delivery.finishQueue.length + 1)]) := by
  simp only [finishTest, hl, List.length_append, List.length_singleton]
  exact if_neg fun hn => (not_readyToFinish_iff s n l).mpr hn h

end

/-- Settles O52: the cases of `doTakeDelivery`, read in the state the request is executed in, and those of `finishTest`. -/
theorem takeDeliveryReturnsHead : Obligations.TakeDeliveryReturnsHead := by
  refine ⟨?request, fun s n l hl => ⟨finishTest_notReady hl, fun hr hroom => (finishTest_ready hl hr).trans (if_pos hroom),
    fun hr hroom => (finishTest_ready hl hr).trans (if_neg hroom)⟩⟩
  intro s tag h u
  have hd : u.delivery = s.delivery := taking_delivery s
  refine ⟨fun hr => takeDelivery_arrives h tag (doTakeDelivery_empty (hd ▸ hr)), fun d rest hr hq => ?noneWaits,
    fun d rest n more l hr hq hl => ?oldestWaits⟩
  case noneWaits =>
    rw [← hd] at hr hq ⊢
    exact takeDelivery_arrives h tag (doTakeDelivery_noneWaits hr hq)
  case oldestWaits =>
    rw [← taking_lay?] at hl
    rw [← hd] at hr hq ⊢
    rw [← taking_lays s, ← taking_order s]
    exact takeDelivery_arrives h tag (doTakeDelivery_finishesOldest hr hq hl)

/-! ### Handover (R131, R132) -/

/-- Where a piece goes, and when it flips the toggle (R132). -/
theorem handOver_eq {s : State} {n : Nat} {l : Lay} {mode : DeliveryMode} (hl : s.lay? n = some l) (hm : l.mode = some mode)
    (cls : PieceClass) (depth width : Nat) (kind : PieceKind) : s.handOver n cls depth width kind =
      { s with delivery := { s.delivery with
        toggleB := (destinationFor cls mode s.delivery.toggleB).2
        pieces := s.delivery.pieces ++
          [⟨n, cls, depth, width, kind, (destinationFor cls mode s.delivery.toggleB).1, false, false, s.delivery.nextPiece⟩]
        nextPiece := s.delivery.nextPiece + 1 } } := by
  rw [State.handOver, hl, Option.bind_some, hm, Option.getD_some]

/-- A piece flips the toggle: a BLOCK of an ALTERNATE lay (R132). -/
def flipsToggle : PieceClass → DeliveryMode → Bool
  | .block, .alternate => true
  | _, _ => false

theorem flipsToggle_iff (cls : PieceClass) (mode : DeliveryMode) :
    flipsToggle cls mode = true ↔ cls = .block ∧ mode = .alternate := by
  cases cls <;> cases mode <;> decide

theorem destinationFor_toggle (cls : PieceClass) (mode : DeliveryMode) (toggleB : Bool) :
    (destinationFor cls mode toggleB).2 = if flipsToggle cls mode then !toggleB else toggleB := by
  cases cls <;> cases mode <;> rfl

/-! ### The piece list -/

/-- The piece that `modifyFirst` changes is the first that satisfies the test. -/
theorem modifyFirst_append {p : Piece → Bool} (f : Piece → Option Piece) {older : List Piece} {x : Piece} (younger : List Piece)
    (ho : ∀ q ∈ older, ¬p q = true) (hx : p x = true) :
    modifyFirst p f (older ++ x :: younger) = older ++ ((f x).toList ++ younger) := by
  induction older with
  | nil => exact if_pos hx
  | cons y older ih =>
    obtain ⟨hy, ho⟩ := List.forall_mem_cons.mp ho
    rw [List.cons_append, modifyFirst, if_neg hy, ih ho, List.cons_append]

theorem find?_append_first {p : Piece → Bool} {older : List Piece} {x : Piece} (younger : List Piece)
    (ho : ∀ q ∈ older, ¬p q = true) (hx : p x = true) : (older ++ x :: younger).find? p = some x :=
  List.find?_eq_some_iff_append.mpr ⟨hx, older, younger, rfl, by simpa using ho⟩

theorem carries_iff (number : Nat) (p : Piece) : carries number p = true ↔ p.number = number := decide_eq_true_iff

/-! ### DELIVER is posted (R133, R136) -/

theorem postable_iff (s : State) (p : Piece) :
    s.postable p = true ↔ p.posted = false ∧ p.late = false ∧ ∃ l, s.lay? p.lay = some l ∧ l.state ≠ .held := by
  simp [State.postable, State.unheld, Option.any_eq_true, and_assoc]

theorem deliverRule_posts {s : State} {older younger : List Piece} {p : Piece} {k : Nat}
    (hc : s.cell.state = .running ∨ s.cell.state = .stopping) (hs : s.delivery.pieces = older ++ p :: younger)
    (ho : ∀ q ∈ older, ¬s.postable q = true) (hp : s.postable p = true) (hk : s.working .out = some k) :
    deliverRule s = some ({ s with delivery := { s.delivery with pieces := older ++ { p with posted := true } :: younger } },
      [.post k ⟨.deliver p.destination, [.delivery p.lay p.number]⟩]) := by
  rw [deliverRule, if_pos hc, hs, find?_append_first younger ho hp, hk, modifyFirst_append _ younger ho hp]
  rfl

theorem deliverRule_none {s : State} (h : ¬(s.cell.state = .running ∨ s.cell.state = .stopping) ∨
    (∀ q ∈ s.delivery.pieces, ¬s.postable q = true) ∨ s.working .out = none) : deliverRule s = none := by
  unfold deliverRule
  rcases h with hc | hp | hk
  · exact if_neg hc
  · rw [List.find?_eq_none.mpr hp]
    exact ite_self none
  · rw [hk]
    cases s.delivery.pieces.find? s.postable <;> exact ite_self none

/-! ### The ends of a DELIVER (R134 to R136) -/

section
variable {s : State} {p : Piece} {older younger : List Piece} (hs : s.delivery.pieces = older ++ p :: younger)
  (ho : ∀ q ∈ older, q.number ≠ p.number)
include hs ho

theorem unpost_eq : s.unpost p.number = { s with delivery := { s.delivery with
    pieces := older ++ { p with posted := false, late := decide (s.cell.state = .stopping) } :: younger } } := by
  rw [State.unpost, hs, modifyFirst_append _ younger (fun q hq => mt (carries_iff _ q).mp (ho q hq)) ((carries_iff _ p).mpr rfl)]
  rfl

theorem deliverEnds_done {n : Nat} {l : Lay} (hl : s.lay? n = some l) (value : BitVec 32) : deliverEnds n p.number (.done value) s =
    (State.setLay { s with delivery := { s.delivery with pieces := older ++ younger } } n (some (l.countPiece p.destination)),
      [.finishTest n]) := by
  have hold : ∀ q ∈ older, ¬carries p.number q = true := fun q hq => mt (carries_iff _ q).mp (ho q hq)
  have hp : carries p.number p = true := (carries_iff _ p).mpr rfl
  rw [deliverEnds, hs, find?_append_first younger hold hp, modifyFirst_append _ younger hold hp]
  exact congrArg (·, [Task.finishTest n])
    (updateLay_some (s := { s with delivery := { s.delivery with pieces := older ++ younger } }) hl _)

end

theorem deliverEnds_refused {s : State} (n number : Nat) {reason : Reason} (h : reason ≠ .aborted) :
    deliverEnds n number (.refused reason) s = (s.unpost number, [.raise .orderRefused (.lay n) (reasonIndex reason)]) := by
  cases reason with
  | aborted => exact absurd rfl h
  | cannot | pileEmpty | beltFull => rfl

/-- Settles O54: the handover, the rule that posts a DELIVER, and its ends. -/
theorem pieceDestinationAtHandover : Obligations.PieceDestinationAtHandover := by
  refine ⟨?handover, ?posting, ?ends⟩
  case handover =>
    intro s n depth width cls kind l mode hl hm
    refine ⟨(destinationFor cls mode s.delivery.toggleB).1, flipsToggle cls mode, ?_, flipsToggle_iff cls mode, ?_, ?_, ?_, ?_⟩
    · rw [← destinationFor_toggle]
      exact handOver_eq hl hm cls depth width kind
    · rintro rfl; rfl
    · rintro rfl rfl; rfl
    · rintro rfl rfl; rfl
    · rintro rfl rfl; rfl
  case posting =>
    intro s active due
    have hdue (q : Piece) : s.postable q = true ↔ due q := postable_iff s q
    refine ⟨fun older p younger k hc hs ho hp hk =>
      deliverRule_posts hc hs (fun q hq => mt (hdue q).mp (ho q hq)) ((hdue p).mpr hp) hk, fun h => deliverRule_none ?_⟩
    exact h.imp_right (Or.imp_left fun hn q hq => mt (hdue q).mp (hn q hq))
  case ends =>
    intro s n k tag d l p older younger hl hs _ ho ends back
    have hback : s.unpost p.number = back := unpost_eq hs ho
    have unposts : (s.unpost p.number, ([] : List Task)) = (back, []) := congrArg (·, []) hback
    exact ⟨deliverEnds_done hs ho hl, fun reason hr => hback ▸ deliverEnds_refused n p.number hr, unposts, unposts, unposts, unposts⟩

end Sys2Proof.Machine
end

section
/-! The Event Unit (spec file 08): LOAD_SEVERITY, CLEAR_EVENTS and RESET_WEAR; how an event is recorded and escalated by its class; what a
halt does to the cell, the lay on the TABLE and the slots. One equation for each case, then the statements put together from them. -/

namespace Sys2Proof.Machine

/-! ### The records of the kinds -/

theorem kindAt_modifyKind_same {e : EventUnit} {i : Nat} (hi : i < e.kinds.length) (f : KindRecord → KindRecord) :
    (e.modifyKind i f).kindAt i = f (e.kindAt i) := by
  simp [EventUnit.modifyKind, EventUnit.kindAt, hi]

theorem kindAt_modifyKind_other (e : EventUnit) {i j : Nat} (h : j ≠ i) (f : KindRecord → KindRecord) :
    (e.modifyKind i f).kindAt j = e.kindAt j := by
  simp [EventUnit.modifyKind, EventUnit.kindAt, h.symm]

/-- A change of a kind's record is what it makes of the record that stands there. -/
theorem modifyKind_congr {e : EventUnit} {i : Nat} {f g : KindRecord → KindRecord} (h : f (e.kindAt i) = g (e.kindAt i)) :
    e.modifyKind i f = e.modifyKind i g := by
  rw [EventUnit.modifyKind, h]; rfl

/-- The transmitter takes owed notices alone, so a request finds every class as it stood. -/
theorem taking_cls (s : State) (i : Nat) : (s.taking.events.kindAt i).cls = (s.events.kindAt i).cls := by
  have hframe : s.taking.frame = _ := takeFrame_frame _
  simp only [State.frame, Prod.mk.injEq] at hframe
  obtain ⟨-, -, -, -, -, -, -, -, -, -, -, hkinds⟩ := hframe
  exact (kinds_classes hkinds).2 i

/-! ### LOAD_SEVERITY (R143, R155) -/

/-- A kind takes a class, and the notice bit where one is carried; a bit turned off withdraws the owed notice (R153, R155). -/
def State.writeKind (s : State) (i : Nat) (c : EventClass) (notice : Option Bool) : State :=
  { s with events := s.events.modifyKind i fun r => { r with
      cls := c
      notice := notice.getD r.notice
      owed := if notice = some false then none else r.owed } }

theorem load_eq (cls : Option EventClass) (notice : Option Bool) (r : KindRecord) : r.load cls notice = { r with
    cls := cls.getD r.cls
    notice := notice.getD r.notice
    owed := if notice = some false then none else r.owed } := by
  rcases notice with _ | _ | _ <;> rfl

theorem writeKind_load (s : State) (i : Nat) (cls : Option EventClass) (notice : Option Bool) :
    { s with events := s.events.modifyKind i (KindRecord.load cls notice) } =
      s.writeKind i (cls.getD (s.events.kindAt i).cls) notice :=
  congrArg (fun e => { s with events := e }) (modifyKind_congr (load_eq cls notice _))

section
variable {s : State} {kind : Byte} {notice : Option Bool}

theorem doLoadSeverity_noKind (cls : Option Byte) (notice : Option Bool) (s : State) (hi : 32 ≤ kind.toNat) :
    doLoadSeverity kind cls notice s = refuse .badArg s := if_pos hi

variable (hi : kind.toNat < 32)
include hi

theorem doLoadSeverity_noticeOnly : doLoadSeverity kind none notice s =
    accept (s.writeKind kind.toNat (s.events.kindAt kind.toNat).cls notice, []) := by
  simp only [doLoadSeverity, if_neg (Nat.not_le.mpr hi), writeKind_load]; rfl

theorem doLoadSeverity_noClass {code : Byte} (hc : classOfCode code.toNat = none) :
    doLoadSeverity kind (some code) notice s = refuse .badArg s := by
  simp only [doLoadSeverity, if_neg (Nat.not_le.mpr hi), hc]

variable {code : Byte} {c : EventClass} (hc : classOfCode code.toNat = some c)
include hc

theorem doLoadSeverity_sameClass (h : c = (s.events.kindAt kind.toNat).cls) : doLoadSeverity kind (some code) notice s =
    accept (s.writeKind kind.toNat (s.events.kindAt kind.toNat).cls notice, []) := by
  simp only [doLoadSeverity, if_neg (Nat.not_le.mpr hi), hc, if_pos h, writeKind_load]; rfl

variable (h : c ≠ (s.events.kindAt kind.toNat).cls)
include h

theorem doLoadSeverity_fixed (hf : fixedKind kind.toNat = true) :
    doLoadSeverity kind (some code) notice s = refuse .fixedKind s := by
  simp only [doLoadSeverity, if_neg (Nat.not_le.mpr hi), hc, if_neg h, if_pos hf]

variable (hf : fixedKind kind.toNat = false)
include hf

theorem doLoadSeverity_note (hn : c = .note) : doLoadSeverity kind (some code) notice s = refuse .badArg s := by
  simp only [doLoadSeverity, if_neg (Nat.not_le.mpr hi), hc, if_neg h, hf, Bool.false_eq_true, if_false, if_pos hn]

theorem doLoadSeverity_writes (hn : c ≠ .note) :
    doLoadSeverity kind (some code) notice s = accept (s.writeKind kind.toNat c notice, []) := by
  simp only [doLoadSeverity, if_neg (Nat.not_le.mpr hi), hc, if_neg h, hf, Bool.false_eq_true, if_false, if_neg hn, writeKind_load]
  rfl

end

theorem parseRequest_encode_loadSeverity (kind : Byte) (cls : Option Byte) (notice : Option Bool) :
    parseRequest (encodeRequest (.loadSeverity kind cls notice)) = some (.loadSeverity kind cls notice) := by
  refine (parseRequest_loadSeverity kind _ _ _).trans ?_
  rw [parseSeverity, flagOf_flagByte]
  cases cls <;> cases notice <;> rfl

/-- A LOAD_SEVERITY request is answered as `doLoadSeverity` answers it. -/
theorem loadSeverity_arrives {s : State} (h : s.awaitsRequest) (tag kind : Byte) (cls : Option Byte) (notice : Option Bool) {a : Answer}
    (ha : doLoadSeverity kind cls notice s.taking = a) : exec (.loadSeverity tag kind cls notice) s =
      .next (a.state.answered tag (.loadSeverity kind cls notice) a.result a.body) := by
  subst ha
  exact request_arrives tag _ (encodeRequest_length _ (by simp) (by simp)) h (parseRequest_encode_loadSeverity kind cls notice)

/-- Settles O39: the checks of `doLoadSeverity` in their order, and what it writes. -/
theorem loadSeverityWritesClass : Obligations.LoadSeverityWritesClass := by
  intro s tag kind cls notice h u i old answer written
  have answers {a : Answer} (ha : doLoadSeverity kind cls notice u = a) := loadSeverity_arrives h tag kind cls notice ha
  have hold : (u.events.kindAt i).cls = old := taking_cls s i
  have keeps (ha : doLoadSeverity kind cls notice u = accept (u.writeKind i (u.events.kindAt i).cls notice, [])) :
      exec (.loadSeverity tag kind cls notice) s = answer (written old) .ok := by
    rw [hold] at ha
    exact answers ha
  refine ⟨fun hi => answers (doLoadSeverity_noKind cls notice u hi), fun hi hc => ?noticeOnly, fun code hi hc => ?carried⟩
  case noticeOnly => subst hc; exact keeps (doLoadSeverity_noticeOnly hi)
  case carried =>
    subst hc
    refine ⟨fun hc => answers (doLoadSeverity_noClass hi hc), fun c hc => ?_⟩
    rw [← hold]
    exact ⟨fun hs => hold ▸ keeps (doLoadSeverity_sameClass hi hc hs), fun hs hf => answers (doLoadSeverity_fixed hi hc hs hf),
      fun hs hf hn => answers (doLoadSeverity_note hi hc hs hf hn), fun hs hf hn => answers (doLoadSeverity_writes hi hc hs hf hn)⟩

/-! ### CLEAR_EVENTS and RESET_WEAR (R103, R154) -/

/-- A CLEAR_EVENTS request is answered as `doClearEvents` answers it. -/
theorem clearEvents_arrives {s : State} (h : s.awaitsRequest) (tag : Byte) (flags counters : BitVec 32) {a : Answer}
    (ha : doClearEvents flags counters s.taking = a) :
    exec (.clearEvents tag flags counters) s = .next (a.state.answered tag (.clearEvents flags counters) a.result a.body) := by
  subst ha
  refine request_arrives tag _ (encodeRequest_length _ (by simp) (by simp)) h ?_
  refine (parseRequest_clearEvents _ _ _ _ _ _ _ _).trans ?_
  rw [word32_parts, word32_parts]

/-- Settles O44: both requests write what they name and lead to no work of their own. -/
theorem clearEventsAndResetWear : Obligations.ClearEventsAndResetWear := fun _ tag h =>
  ⟨fun flags counters => clearEvents_arrives h tag flags counters rfl, cellControl_arrives h tag 5 rfl⟩

/-! ### An event is recorded (R142 to R146, R153) -/

theorem take_counter_eq (j : Subject) (d : Nat) (r : KindRecord) : (r.take j d).counter = bump16 r.counter := by
  unfold KindRecord.take; split <;> rfl

theorem take_cls (j : Subject) (d : Nat) (r : KindRecord) : (r.take j d).cls = r.cls := congrArg Prod.fst (take_class j d r)

theorem take_notice (j : Subject) (d : Nat) (r : KindRecord) : (r.take j d).notice = r.notice := congrArg Prod.snd (take_class j d r)

theorem take_flag (j : Subject) (d : Nat) (r : KindRecord) : (r.take j d).flag = (r.flag || decide (r.cls ≠ .ignore)) := by
  unfold KindRecord.take; split <;> simp [*]

theorem take_owed (j : Subject) (d : Nat) (r : KindRecord) : (r.take j d).owed =
    if r.cls ≠ .ignore ∧ r.flag = false ∧ r.notice = true then some (j, d) else r.owed := by
  unfold KindRecord.take; split <;> simp [*]

/-- A hold by an event changes no kind's record. -/
@[simp] theorem holdByEvent_kinds (n : Nat) (kind : EventKind) (d : Nat) (s : State) :
    (holdByEvent n kind d s).1.events.kinds = s.events.kinds := by
  unfold holdByEvent
  repeat' split
  all_goals simp

/-- The escalation changes no kind's record. -/
theorem escalate_kinds (cls : EventClass) (kind : EventKind) (j : Subject) (d : Nat) (s : State) :
    (escalate cls kind j d s).1.events.kinds = s.events.kinds := by
  unfold escalate
  repeat' split
  · exact holdByEvent_kinds _ _ _ _
  · rfl
  · rfl
  · rfl

/-- An event leaves the records of the kinds as its recording leaves them. -/
theorem kindAt_takeEvent (kind : EventKind) (j : Subject) (d : Nat) (s : State) (i : Nat) :
    (takeEvent kind j d s).1.events.kindAt i = (s.record kind j d).events.kindAt i := by
  rw [EventUnit.kindAt, takeEvent, escalate_kinds]; rfl

theorem kindAt_takeEvent_same {kind : EventKind} {s : State} (h : kind.index < s.events.kinds.length) (j : Subject) (d : Nat) :
    (takeEvent kind j d s).1.events.kindAt kind.index = (s.events.kindAt kind.index).take j d := by
  rw [kindAt_takeEvent, record_events, kindAt_modifyKind_same h]

theorem kindAt_takeEvent_other {kind : EventKind} {i : Nat} (h : i ≠ kind.index) (j : Subject) (d : Nat) (s : State) :
    (takeEvent kind j d s).1.events.kindAt i = s.events.kindAt i := by
  rw [kindAt_takeEvent, record_events, kindAt_modifyKind_other _ h]

/-- Figure 37 has 32 kinds. -/
theorem kind_index_lt (kind : EventKind) : kind.index < 32 := by cases kind <;> decide

/-! ### An event is escalated by its class (R104, R147, R148, R150) -/

theorem escalationClass_subject (cls : EventClass) {kind : EventKind} {j : Subject} (h : kind ≠ .orderTimeout ∨ j ≠ .none) :
    escalationClass cls kind j = cls :=
  if_neg fun ⟨hk, hj⟩ => h.elim (· hk) (· hj)

section
variable {s : State} {kind : EventKind} {j : Subject} (d : Nat)

/-- An ORDER_TIMEOUT without a subject is recorded only (log 14). -/
theorem takeEvent_noSubject (hk : kind = .orderTimeout) (hj : j = .none) : takeEvent kind j d s = (s.record kind j d, []) := by
  rw [takeEvent, escalationClass, if_pos ⟨hk, hj⟩]; rfl

/-- An event of a class that neither holds nor halts is recorded only. -/
theorem takeEvent_recorded (h : s.classOf kind = .ignore ∨ s.classOf kind = .note ∨ s.classOf kind = .advisory) :
    takeEvent kind j d s = (s.record kind j d, []) := by
  by_cases hn : kind = .orderTimeout ∧ j = .none
  · exact takeEvent_noSubject d hn.1 hn.2
  · rw [takeEvent, escalationClass, if_neg hn]
    rcases h with h | h | h <;> rw [h] <;> rfl

theorem takeEvent_lay (h : s.classOf kind = .lay) (n : Nat) :
    takeEvent kind (.lay n) d s = holdByEvent n kind d (s.record kind (.lay n) d) := by
  rw [takeEvent, escalationClass_subject _ (.inr (by simp)), h]; rfl

/-- A LAY event whose subject is no lay is recorded only. -/
theorem takeEvent_lay_elsewhere (h : s.classOf kind = .lay) (hj : ∀ n, j ≠ .lay n) :
    takeEvent kind j d s = (s.record kind j d, []) := by
  rw [takeEvent, escalationClass, h]
  cases j with
  | lay n => exact absurd rfl (hj n)
  | none | slot _ | job _ => split <;> rfl

theorem takeEvent_halts (h : s.classOf kind = .cell) (hj : kind ≠ .orderTimeout ∨ j ≠ .none)
    (hc : s.cell.state.isHalting = true) : takeEvent kind j d s = haltCell ⟨kind, j, d⟩ (s.record kind j d) := by
  rw [takeEvent, escalationClass_subject _ hj, h]
  exact if_pos hc

theorem takeEvent_cell_atRest (h : s.classOf kind = .cell) (hc : s.cell.state.isHalting = false) :
    takeEvent kind j d s = (s.record kind j d, []) := by
  by_cases hn : kind = .orderTimeout ∧ j = .none
  · exact takeEvent_noSubject d hn.1 hn.2
  · rw [takeEvent, escalationClass, if_neg hn, h]
    exact if_neg (by simp [hc])

end

/-! ### A hold by an event (R15, R104, R148) -/

theorem hold_eq_held {l : Lay} (cause : HoldCause) (h : l.state ≠ .held) : l.hold cause = l.held cause := if_neg h

/-- A free record, or a lay in the finish queue, is not held. -/
theorem holdByEvent_none {s : State} {n : Nat} (kind : EventKind) (d : Nat) (h : ∀ l, s.lay? n = some l → n ∈ s.delivery.finishQueue) :
    holdByEvent n kind d s = (s, []) := by
  unfold holdByEvent
  cases hl : s.lay? n with
  | none => rfl
  | some l => exact if_pos (h l hl)

section
variable {s : State} {n : Nat} {l : Lay} (hl : s.lay? n = some l) (hq : n ∉ s.delivery.finishQueue) (kind : EventKind) (d : Nat)
include hl hq

theorem holdByEvent_deferred (h : s.gate.state = .stroke ∧ s.permitted n = true) : holdByEvent n kind d s =
    ({ s with events := { s.events with deferred := some (s.events.deferred.getD ⟨n, kind, d⟩) } }, []) := by
  simp only [holdByEvent, hl, if_neg hq, if_pos h]

theorem holdByEvent_held (h : ¬(s.gate.state = .stroke ∧ s.permitted n = true)) (hs : l.state = .held) :
    holdByEvent n kind d s = (s, []) := by
  simp only [holdByEvent, hl, if_neg hq, if_neg h, if_pos hs]

theorem holdByEvent_holds (hs : l.state ≠ .held) (hp : s.permitted n = false) :
    holdByEvent n kind d s = (s.setLay n (some (l.held (.event kind d))), []) := by
  simp only [holdByEvent, hl, if_neg hq, if_neg hs, hp, Bool.false_eq_true, and_false, if_false, hold_of_unheld _ hl hs]

/-- The lay's permit is OPEN: it is withdrawn, the lay goes back to POSITIONING, and the KNIFE is stopped (R104). -/
theorem holdByEvent_withdraws (hs : l.state ≠ .held) (hg : s.gate.state = .opened) (hp : s.permitted n = true) :
    holdByEvent n kind d s =
      (State.setLay { s with gate := s.gate.withdraw } n (some ({ l with phase := some .positioning }.held (.event kind d))),
        s.postTo .knife .stop (.gate n)) := by
  have hup := updateLay_some (s := { s with gate := s.gate.withdraw }) hl
    fun l => Lay.hold (.event kind d) { l with phase := some .positioning }
  have hstroke : ¬(s.gate.state = .stroke ∧ s.permitted n = true) := fun h => by simp [hg] at h
  simp only [holdByEvent, hl, if_neg hq, if_neg hstroke, if_neg hs, if_pos hp, hup]
  rw [hold_eq_held (l := { l with phase := some .positioning }) _ hs]

end

/-! ### What a halt does (R105, R117, R150, R164) -/

theorem map_mark_map_detach (slots : List Slot) :
    ((slots.map (Slot.mapSources .detach)).map fun (x : Slot) =>
      { x with inFlight := x.inFlight.map fun (i : InFlight) => { i with order := i.order.mapSources Source.markHalt } }) =
    slots.map fun (x : Slot) => { x with
      inFlight := x.inFlight.map fun (i : InFlight) => { i with order := (i.order.mapSources .detach).mapSources .markHalt }
      announced := x.announced.map fun (a : Announced) => { a with order := a.order.mapSources .detach }
      posted := x.posted.map (Order.mapSources .detach)
      waiting := x.waiting.map (Order.mapSources .detach) } := by
  simp only [List.map_map, Function.comp_def, Slot.mapSources, Option.map_map]

theorem haltLay_occupied {s : State} {n : Nat} (h : s.zones.table.occupant = some n) :
    haltLay s = s.updateLay n fun l => { l with phase := l.phase.map haltPhase } := by simp only [haltLay, h]

theorem haltLay_empty {s : State} (h : s.zones.table.occupant = none) : haltLay s = s := by simp only [haltLay, h]

@[simp] theorem haltLay_gate (s : State) : (haltLay s).gate = s.gate := by
  unfold haltLay; split <;> simp

theorem haltTable_stroke {s : State} {p : Permit} (hg : s.gate.state = .stroke) (hp : s.gate.permit = some p) : haltTable s =
    (State.takeDeferred { haltLay s with gate := s.gate.withdraw }, [.raise .interrupted (.lay p.lay) p.step]) := by
  simp only [haltTable, hg, hp, haltLay_gate]

theorem haltTable_opened {s : State} (hg : s.gate.state = .opened) :
    haltTable s = ({ haltLay s with gate := s.gate.withdraw }, []) := by
  simp only [haltTable, hg, haltLay_gate]

theorem haltTable_noPermit {s : State} (hg : s.gate.state = .closed ∨ s.gate.state = .lockedOut) : haltTable s = (haltLay s, []) := by
  rcases hg with hg | hg <;> simp only [haltTable, hg]

theorem takeDeferred_present {s : State} {d : DeferredHold} (h : s.events.deferred = some d) : s.takeDeferred =
    State.updateLay { s with events := { s.events with deferred := none } } d.lay (Lay.hold (.event d.kind d.detail)) := by
  rw [State.takeDeferred, h]; rfl

/-- Settles O53: the record field by field, the escalation class by class, the effects of a halt, and what the settling comes to. -/
theorem eventIsTaken : Obligations.EventIsTaken := by
  refine ⟨?taken, ?halt, fun s t work r before later hr hb ht => settle_first hr hb ht,
    fun s work h => complete_settled (s, work) h⟩
  case taken =>
    intro s kind subject detail hlen r e
    have hkind : e.kindAt kind.index = r.take subject detail :=
      kindAt_takeEvent_same (by rw [hlen]; exact kind_index_lt kind) subject detail
    rw [hkind]
    refine ⟨take_counter_eq _ _ r, take_flag _ _ r, take_owed _ _ r, take_cls _ _ r, take_notice _ _ r,
      fun i hi => kindAt_takeEvent_other hi subject detail s, takeEvent_recorded detail, fun n l hr hj hl hq => ?lay,
      fun hr hj => ?nobody, fun hr hj hc => ?cell, takeEvent_cell_atRest detail, takeEvent_noSubject detail⟩
    case lay =>
      subst hj
      have taken {a : Effect} (ha : holdByEvent n kind detail (s.record kind (.lay n) detail) = a) :
          perform (.raise kind (.lay n) detail) s = a := (takeEvent_lay detail hr n).trans ha
      have hl : (s.record kind (.lay n) detail).lay? n = some l := hl
      have hq : n ∉ (s.record kind (.lay n) detail).delivery.finishQueue := hq
      refine ⟨fun hs hp => taken (holdByEvent_held hl hq kind detail hp hs),
        fun hs hp => taken (holdByEvent_holds hl hq kind detail hs hp),
        fun hs hg hp => taken (holdByEvent_withdraws hl hq kind detail hs hg hp), fun hg hp => ?_⟩
      have hdeferred := taken (holdByEvent_deferred hl hq kind detail ⟨hg, hp⟩)
      refine ⟨?_, by rw [hdeferred]; rfl, by rw [hdeferred]; rfl, by rw [hdeferred]⟩
      rw [show e = _ from congrArg (fun a : Effect => a.1.events) hdeferred]
      change some (s.events.deferred.getD _) = _
      cases s.events.deferred <;> rfl
    case nobody =>
      by_cases hlay : ∃ n, subject = .lay n
      · obtain ⟨n, rfl⟩ := hlay
        exact (takeEvent_lay detail hr n).trans (holdByEvent_none kind detail fun l => hj n l rfl)
      · exact takeEvent_lay_elsewhere detail hr fun n hn => hlay ⟨n, hn⟩
    case cell =>
      intro detached cutOff u
      have hdetached (o : Order) : detached o = o.mapSources .detach := by
        refine congrArg (fun f => { o with sources := o.sources.map f }) (funext fun c => ?_)
        cases c <;> rfl
      have hcutOff (o : Order) : cutOff o = (o.mapSources .detach).mapSources .markHalt := by
        simp only [cutOff, Order.mapSources, List.map_map]
        refine congrArg (fun f => { o with sources := o.sources.map f }) (funext fun c => ?_)
        cases c <;> rfl
      simp only [hcutOff, funext hdetached]
      rw [← map_mark_map_detach]
      exact takeEvent_halts detail hr hj hc
  case halt =>
    intro s resumes u closed
    have hresumes : haltPhase = resumes := by funext p; cases p <;> rfl
    have hlay : haltLay s = u := by
      cases ho : s.zones.table.occupant with
      | none => simp only [u, ho, haltLay_empty ho]
      | some n => simp only [u, ho, haltLay_occupied ho, hresumes]
    rw [← hlay]
    exact ⟨fun p => haltTable_stroke, haltTable_opened, haltTable_noPermit, takeDeferred_absent, fun d => takeDeferred_present, rfl, rfl⟩

end Sys2Proof.Machine
end

section
/-! The lines that reset the whole part (R157, R170): what POWER_ON and RESET_N leave, and that every other command looks at RESET_N before
it does anything (log 20). -/

namespace Sys2Proof.Machine

/-! ### POWER_ON and RESET_N -/

theorem resetNRelease_held {s : State} (h : s.resetHeld = true) : exec .resetNRelease s = .next (s.begun 1) :=
  congrArg Host.Outcome.next (if_pos h)

theorem resetNRelease_high {s : State} (h : s.resetHeld = false) : exec .resetNRelease s = .next s :=
  congrArg Host.Outcome.next (if_neg (by simp [h]))

/-- Settles O6: a reset is `State.begun` or `State.wiped`, whose fields are the power-on values. -/
theorem resetLinesReset : Obligations.ResetLinesReset := fun _ =>
  ⟨rfl, rfl, fun hr => ⟨_, resetNRelease_held hr, rfl, rfl, rfl, rfl, rfl, rfl, rfl, rfl, rfl⟩, resetNRelease_high⟩

/-! ### RESET_N held low -/

/-- Every command but the reset lines' own has its effect only while RESET_N is high. -/
theorem exec_unlessReset {c : Instr} (hp : c ≠ .powerOn) (ha : c ≠ .resetNAssert) (hn : c ≠ .resetNRelease) :
    ∃ f : State → State, ∀ s, exec c s = .next (unlessReset f s) := by
  cases c with
  | powerOn => exact absurd rfl hp
  | resetNAssert => exact absurd rfl ha
  | resetNRelease => exact absurd rfl hn
  | _ => exact ⟨_, fun _ => rfl⟩

/-- Settles O7: every such command is guarded by RESET_N. -/
theorem heldResetTakesNothing : Obligations.HeldResetTakesNothing := by
  intro c s hr hp ha hn
  obtain ⟨f, hf⟩ := exec_unlessReset hp ha hn
  rw [hf, unlessReset_held hr]

end Sys2Proof.Machine
end

section
/-! The requests to Cell Control (spec file 09): LOAD_CELL, START and STOP, ACK_HALT, CELL_RESET. One equation for each case of the
functions that answer them, read in the state a request is executed in; then the statements put together from them. -/

namespace Sys2Proof.Machine

/-- The cell states in which the parameters may be written and the cell reset (R169, R170). -/
theorem resting_iff (s : State) :
    s.resting = true ↔ s.cell.state = .off ∨ s.cell.state = .standby ∨ s.cell.state = .halted := by
  simp [State.resting, or_assoc]

/-! ### LOAD_CELL (R103, R169) -/

/-- The ranges of Figure 42, and GAUGE_MIN no greater than GAUGE_MAX. -/
theorem params_ok_iff (q : CellParams) : q.ok = true ↔
    q.gaugeMin ≤ 400000 ∧ (1 ≤ q.gaugeMax ∧ q.gaugeMax ≤ 400000) ∧ (1 ≤ q.tableWidth ∧ q.tableWidth ≤ 400000) ∧
      (1 ≤ q.clampMaxH ∧ q.clampMaxH ≤ 400000) ∧ (1 ≤ q.fillTime ∧ q.fillTime ≤ 600000) ∧
      (1 ≤ q.permitWindow ∧ q.permitWindow ≤ 10000) ∧ (1 ≤ q.strokeTime ∧ q.strokeTime ≤ 60000) ∧
      (1 ≤ q.probeTimeout ∧ q.probeTimeout ≤ 10000) ∧ q.idlePark ≤ 3600000 ∧ q.wakeSettle ≤ 60000 ∧ q.gaugeMin ≤ q.gaugeMax := by
  simp only [CellParams.ok, within, Bool.and_eq_true, decide_eq_true_eq, Nat.zero_le, true_and, and_assoc]

section
variable {c : CellLoad} {s : State}

theorem doLoadCell_badState (h : s.resting = false) : doLoadCell c s = refuse .badState s := if_pos h

theorem doLoadCell_badArg (h : s.resting = true) (hq : ¬(s.cell.params.load c).ok = true) : doLoadCell c s = refuse .badArg s := by
  simp only [doLoadCell, h, Bool.true_eq_false, if_false, if_pos (Bool.eq_false_iff.mpr hq)]

theorem doLoadCell_writes (h : s.resting = true) (hq : (s.cell.params.load c).ok = true) : doLoadCell c s = accept ({ s with
    cell := { s.cell with params := s.cell.params.load c }
    gate := { s.gate with
      wearReported := s.gate.wearReported && decide ((s.cell.params.load c).knifeWearLimit = s.cell.params.knifeWearLimit) } }, []) := by
  simp only [doLoadCell, h, hq, Bool.true_eq_false, if_false]

end

/-- The eleven carried values are read back from their presence set and their bytes. -/
theorem parseRequest_encode_loadCell (c : CellLoad) : parseRequest (encodeRequest (.loadCell c)) = some (.loadCell c) := by
  have hlt : presenceSet ((cellLoadList c).map Option.isSome) < 2048 :=
    Nat.lt_of_lt_of_eq (presenceSet_lt _) (by simp [cellLoadList])
  have hbits : lowBits 11 (presenceSet ((cellLoadList c).map Option.isSome)) = (cellLoadList c).map Option.isSome :=
    lowBits_presenceSet ((cellLoadList c).map Option.isSome)
  refine (parseRequest_loadCell _ _ ((cellLoadList c).flatMap fun v => (v.map be32).getD [])).trans ?_
  rw [word16_parts, toNat_word16 (by omega), if_pos hlt, hbits, parseCarried_values]
  rfl

/-- A LOAD_CELL request is answered as `doLoadCell` answers it. -/
theorem loadCell_arrives {s : State} (h : s.awaitsRequest) (tag : Byte) (c : CellLoad) {a : Answer} (ha : doLoadCell c s.taking = a) :
    exec (.loadCell tag c) s = .next (a.state.answered tag (.loadCell c) a.result a.body) := by
  subst ha
  exact request_arrives tag _ (encodeRequest_length _ (by simp) (by simp)) h (parseRequest_encode_loadCell c)

/-- The parameters after a request are those its own effect leaves. -/
theorem params_of_answered (s : State) (work : List Task) (tag : Byte) (r : Request) (result : Result) (body : List Byte) :
    ((s.worked work).answered tag r result body).cell.params = s.cell.params := by
  simp [State.answered, State.worked]

/-- Settles O37: the checks of `doLoadCell` in their order, and what it writes. -/
theorem loadCellWritesParameters : Obligations.LoadCellWritesParameters := by
  intro s tag c h u resting keep p q valid
  have answers {a : Answer} (ha : doLoadCell c u = a) := loadCell_arrives h tag c ha
  have hcell : u.cell = s.cell := taking_cell s
  have hresting : u.resting = true ↔ resting := by rw [resting_iff, hcell]
  have hkeep : carried = keep := by funext v old; cases v <;> rfl
  have hload : u.cell.params.load c = q := by rw [hcell, CellParams.load, hkeep]
  have hvalid : (u.cell.params.load c).ok = true ↔ valid := by rw [hload, params_ok_iff]
  refine ⟨fun hs => answers (doLoadCell_badState (Bool.eq_false_iff.mpr (mt hresting.mp hs))),
    fun hs hv => answers (doLoadCell_badArg (hresting.mpr hs) (mt hvalid.mp hv)), fun hs hv => ?_⟩
  have hwrites := answers (doLoadCell_writes (hresting.mpr hs) (hvalid.mpr hv))
  rw [hload, hcell] at hwrites
  refine ⟨_, hwrites, params_of_answered _ [] _ _ _ _, ?_⟩
  rw [hcell]; rfl

/-! ### What the GUARD says (R125) -/

theorem guardClosed_iff (s : State) : s.guardClosed = true ↔ ∃ g, s.guardState = some g ∧ g.isOpen = false := by
  simp [State.guardClosed, Option.any_eq_true]

theorem guardOpen_iff (s : State) : s.guardOpen = true ↔ ∃ g, s.guardState = some g ∧ g.isOpen = true := by
  simp [State.guardOpen, Option.any_eq_true]

/-! ### START (R161) -/

/-- The conditions of a START. -/
def State.mayStart (s : State) : Prop :=
  s.kindsReady = true ∧ (∃ g, s.guardState = some g ∧ g.isOpen = false) ∧ s.gate.state ≠ .lockedOut

theorem mayStart_iff (s : State) : (s.kindsReady && s.guardClosed && decide (s.gate.state ≠ .lockedOut)) = true ↔ s.mayStart := by
  simp only [Bool.and_eq_true, guardClosed_iff, decide_eq_true_eq, and_assoc, State.mayStart]

theorem taking_mayStart (s : State) : s.taking.mayStart ↔ s.mayStart := by
  unfold State.mayStart; rw [taking_kindsReady, taking_guardState, taking_gate]

theorem taking_startingOrders (s : State) : s.taking.startingOrders = s.startingOrders := by
  unfold State.startingOrders State.slotsWhere State.postTo; rw [taking_slots, taking_working]

section
variable {s : State}

theorem doStart_badState (h : s.cell.state ≠ .standby) : doStart s = refuse .badState s := if_pos h

theorem doStart_notReady (h : s.cell.state = .standby) (hr : ¬s.mayStart) : doStart s = refuse .notReady s :=
  (if_neg fun hn => hn h).trans (if_neg (mt (mayStart_iff s).mp hr))

theorem doStart_starts (h : s.cell.state = .standby) (hr : s.mayStart) :
    doStart s = accept (s, .enter .starting :: s.startingOrders) :=
  (if_neg fun hn => hn h).trans (if_pos ((mayStart_iff s).mpr hr))

/-! ### STOP (R163) -/

theorem doStop_running (h : s.cell.state = .running) : doStop s = accept (s, [.enter .stopping]) := if_pos h

theorem doStop_stopping (h : s.cell.state = .stopping) : doStop s = accept (s, []) := by
  simp only [doStop, h, reduceCtorEq, if_false, if_true]

theorem doStop_badState (hr : s.cell.state ≠ .running) (hs : s.cell.state ≠ .stopping) : doStop s = refuse .badState s :=
  (if_neg hr).trans (if_neg hs)

end

/-- Settles O46: the cases of `doStart` and of `doStop`. -/
theorem startAndStop : Obligations.StartAndStop := by
  intro s tag h u ready
  have hcell : u.cell = s.cell := taking_cell s
  have start {a : Answer} (ha : doStart u = a) := cellControl_arrives h tag 1 ha
  have stop {a : Answer} (ha : doStop u = a) := cellControl_arrives h tag 2 ha
  refine ⟨fun hs => start (doStart_badState (by rwa [hcell])),
    fun hs hr => start (doStart_notReady (by rwa [hcell]) (mt (taking_mayStart s).mp hr)), fun hs hr => ?_,
    fun hs => stop (doStop_running (by rwa [hcell])), fun hs => stop (doStop_stopping (by rwa [hcell])),
    fun hr hs => stop (doStop_badState (by rwa [hcell]) (by rwa [hcell]))⟩
  have hstarts := start (doStart_starts (by rwa [hcell]) ((taking_mayStart s).mpr hr))
  rw [taking_startingOrders] at hstarts
  exact hstarts

/-! ### ACK_HALT (R102, R165) -/

/-- Only the gate's state changes where a lock-out ends. -/
theorem unlock_eq (g : Gate) : g.unlock = { g with state := if g.state = .lockedOut then .closed else g.state } := by
  unfold Gate.unlock; split <;> rfl

theorem taking_guardOpen (s : State) : s.taking.guardOpen = s.guardOpen := by
  unfold State.guardOpen; rw [taking_guardState]

section
variable {s : State}

theorem doAckHalt_open (h : s.guardOpen = true) : doAckHalt s = refuse .notReady s := if_pos h

variable (h : ¬s.guardOpen = true)
include h

theorem doAckHalt_halted (hs : s.cell.state = .halted) :
    doAckHalt s = accept ({ s with gate := s.gate.unlock }, [.enter .standby]) :=
  (if_neg h).trans (by rw [hs])

theorem doAckHalt_atRest (hs : s.cell.state = .off ∨ s.cell.state = .probing ∨ s.cell.state = .standby) :
    doAckHalt s = accept ({ s with gate := s.gate.unlock }, []) :=
  (if_neg h).trans (by rcases hs with hs | hs | hs <;> rw [hs])

theorem doAckHalt_badState (hh : s.cell.state ≠ .halted) (ho : s.cell.state ≠ .off) (hp : s.cell.state ≠ .probing)
    (hs : s.cell.state ≠ .standby) : doAckHalt s = refuse .badState s := by
  refine (if_neg h).trans ?_
  cases hc : s.cell.state with
  | halted => exact absurd hc hh
  | off => exact absurd hc ho
  | probing => exact absurd hc hp
  | standby => exact absurd hc hs
  | starting | running | stopping | parking | parked | waking => rfl

end

/-- Settles O47: the cases of `doAckHalt`. -/
theorem ackHaltAcknowledges : Obligations.AckHaltAcknowledges := by
  intro s tag h u isOpen unlocked
  have answers {a : Answer} (ha : doAckHalt u = a) := cellControl_arrives h tag 3 ha
  have hcell : u.cell = s.cell := taking_cell s
  have hopen : u.guardOpen = true ↔ isOpen := by rw [taking_guardOpen, guardOpen_iff]
  have hunlocked : { u with gate := u.gate.unlock } = unlocked := by rw [unlock_eq]
  refine ⟨fun ho => answers (doAckHalt_open (hopen.mpr ho)), fun ho hs => ?_, fun ho hs => ?_, fun ho hh hoff hp hs =>
    answers (doAckHalt_badState (mt hopen.mp ho) (by rwa [hcell]) (by rwa [hcell]) (by rwa [hcell]) (by rwa [hcell]))⟩
  · rw [← hunlocked]
    exact answers (doAckHalt_halted (mt hopen.mp ho) (by rwa [hcell]))
  · rw [← hunlocked]
    exact answers (doAckHalt_atRest (mt hopen.mp ho) (by rwa [hcell]))

/-! ### CELL_RESET (R128, R170) -/

theorem doCellReset_badState {s : State} (h : ¬s.resting = true) : doCellReset s = refuse .badState s := if_neg h

theorem doCellReset_resets {s : State} (h : s.resting = true) : doCellReset s = accept (cellReset s, [.enter .off]) := if_pos h

theorem cellReset_unconfigured {x : Slot} (h : x.config = none) : x.cellReset = x := by rw [Slot.cellReset, h]

/-- BLINK is pending where the lamp does not blink already (R127). -/
theorem want_blink (x : Slot) :
    x.want .blink = { x with wanted := .blink, lampPending := if x.lamp ≠ .blink then some .blink else none } := by
  simp only [Slot.want, ne_eq, ite_not, eq_comm]

/-- A configured slot is ABSENT without orders or values reported; an AUTO lamp wants BLINK, pending unless it blinks already
(R127, R128). -/
theorem cellReset_configured {x : Slot} {c : SlotConfig} (h : x.config = some c) : x.cellReset = { x with
    state := .absent, caps := none, inFlight := none, announced := none, posted := [], waiting := [], position := none, guard := none
    drive := false, lastStrokeTag := none
    wanted := if c.lamp = .auto then .blink else x.wanted
    lampPending := if c.lamp = .auto ∧ x.lamp ≠ .blink then some .blink else none } := by
  have hlamp : x.cellReset = if c.lamp = .auto then Slot.want .blink { x.cleared.toAbsent with lampPending := none }
      else { x.cleared.toAbsent with lampPending := none } := by simp only [Slot.cellReset, h]
  rw [hlamp]
  by_cases ha : c.lamp = .auto
  · simp [ha, want_blink, Slot.toAbsent, Slot.cleared]
  · simp [ha, Slot.toAbsent, Slot.cleared]

/-- A reset keeps of every slot its configuration, next tag, lamp state and fault code. -/
theorem cellReset_keeps (x : Slot) : x.cellReset.config = x.config ∧ x.cellReset.nextTag = x.nextTag ∧ x.cellReset.lamp = x.lamp ∧
    x.cellReset.faultCode = x.faultCode := by
  cases h : x.config with
  | none => rw [cellReset_unconfigured h]; exact ⟨h, rfl, rfl, rfl⟩
  | some c => rw [cellReset_configured h]; exact ⟨h, rfl, rfl, rfl⟩

/-- A reset of the cell resets each slot. -/
theorem slot_cellReset (s : State) (k : Nat) : (cellReset s).slot k = (s.slot k).cellReset := by
  show ((s.slots.map Slot.cellReset)[k]?).getD .unused = ((s.slots[k]?).getD .unused).cellReset
  rw [List.getElem?_map]
  cases s.slots[k]? <;> rfl

theorem taking_choices (s : State) : s.taking.choices = s.choices := by
  obtain ⟨u, e, h, -⟩ := takeFrame_touches { s with link := { s.link with uStats := { s.link.uStats with
    good := bump32 s.link.uStats.good, requests := bump32 s.link.uStats.requests } } }
  rw [State.taking, h]

/-- Settles O48: `cellReset` of the state the request is executed in, block by block and slot by slot. -/
theorem cellResetResets : Obligations.CellResetResets := by
  intro s tag h u resting
  have answers {a : Answer} (ha : doCellReset u = a) := cellControl_arrives h tag 6 ha
  have hresting : u.resting = true ↔ resting := by rw [resting_iff, taking_cell]
  obtain ⟨hheld, -, hmgmt, -⟩ := h
  refine ⟨fun hs => answers (doCellReset_badState (mt hresting.mp hs)),
    fun hs => ⟨cellReset u, answers (doCellReset_resets (hresting.mpr hs)), rfl, rfl, ?intake, rfl, rfl, ?gate, ?delivery, rfl, ?cell,
      taking_programs s, (taking_mgmt s).trans hmgmt, taking_pending s, (taking_resetHeld s).trans hheld, taking_choices s, rfl, ?answers,
      ?length, fun k _ => ?slot⟩⟩
  case intake => rw [← taking_intake s]; rfl
  case gate => rw [← taking_gate s]; rfl
  case delivery => rw [← taking_delivery s]; rfl
  case cell => rw [← taking_cell s]; rfl
  case answers => rw [← taking_slots s]; rfl
  case length => rw [← taking_slots s]; exact List.length_map _
  case slot =>
    rw [slot_cellReset, taking_slot]
    obtain ⟨hconfig, htag, hlamp, hcode⟩ := cellReset_keeps (s.slot k)
    refine ⟨hconfig, htag, hlamp, hcode, fun c hc => ?_, cellReset_unconfigured⟩
    rw [cellReset_configured hc]
    exact ⟨rfl, rfl, rfl, rfl, rfl, rfl, rfl, rfl⟩

end Sys2Proof.Machine
end

section
/-! Cell Control inside an event (spec file 09): its timers' expiries, the changes of state that wait for a condition, the entries into its
states with the tests of WAKING, and the ends of its orders. One equation for each case, then the statement put together from them. -/

namespace Sys2Proof.Machine

section
variable {s : State}

/-! ### The idle, the settle and the lock wait timer (R162, R167, R168) -/

theorem idleExpiry_running (h : s.cell.idle.isSome = true) : idleExpiry s = (s, .enter .parking :: s.driveOrders false) := if_pos h

theorem idleExpiry_absent (h : s.cell.idle = none) : idleExpiry s = (s, []) := if_neg (by simp [h])

theorem settled_locked (h : s.guardLocked = true) : settled s = (s, [.enter .running]) := if_pos h

theorem settled_unlocked (h : s.guardLocked = false) : settled s = (s.startLockWait, []) := if_neg (by simp [h])

theorem settleExpiry_running (h : s.cell.settle.isSome = true) : settleExpiry s = settled s := if_pos h

theorem settleExpiry_absent (h : s.cell.settle = none) : settleExpiry s = (s, []) := if_neg (by simp [h])

theorem lockWaitExpiry_running (h : s.cell.lockWait.isSome = true) :
    lockWaitExpiry s = startFails (s.setCell { s.cell with lockWait := none }) := if_pos h

theorem lockWaitExpiry_absent (h : s.cell.lockWait = none) : lockWaitExpiry s = (s, []) := if_neg (by simp [h])

section
variable {t : State} {work : List Task} (hr : s.resetHeld = false)
include hr

theorem exec_idleTimerExpiry (h : idleExpiry s = (t, work)) : exec .idleTimerExpiry s = .next (t.after work) :=
  congrArg Host.Outcome.next (event_after hr h)

theorem exec_wakeSettleExpiry (h : settleExpiry s = (t, work)) : exec .wakeSettleExpiry s = .next (t.after work) :=
  congrArg Host.Outcome.next (event_after hr h)

theorem exec_lockWaitExpiry (h : lockWaitExpiry s = (t, work)) : exec .lockWaitExpiry s = .next (t.after work) :=
  congrArg Host.Outcome.next (event_after hr h)

end

/-! ### The changes of state that wait for a condition (R160, R161, R163, R166 to R168) -/

theorem cellRule_probing (h : s.cell.state = .probing) :
    cellRule s = if ∃ x ∈ s.slots, x.state = .probing then none else some (s, [.enter .standby]) := by
  simp only [cellRule, h, List.any_eq_true, decide_eq_true_eq]

theorem cellRule_awaits (h : s.cell.state = .starting ∨ s.cell.state = .waking) (ha : s.awaiting = true) : cellRule s = none := by
  rcases h with h | h <;> simp only [cellRule, h, if_pos ha]

theorem cellRule_starting (h : s.cell.state = .starting) (ha : s.awaiting = false) : cellRule s =
    if s.guardLocked = true then some (s, [.enter .running])
    else if s.cell.lockWait.isSome = true then none else some (s.startLockWait, []) := by
  simp only [cellRule, h, ha, Bool.false_eq_true, if_false]

/-- With its orders done a wake waits for the lock where the lock wait runs, else for the settle timer; a WAKE_SETTLE of 0 is over at once
(R168). -/
theorem cellRule_waking (h : s.cell.state = .waking) (ha : s.awaiting = false) : cellRule s =
    if s.cell.lockWait.isSome = true then (if s.guardLocked = true then some (s, [.enter .running]) else none)
    else if s.cell.settle.isSome = true then none
    else if s.cell.params.wakeSettle ≠ 0 then
      some ({ s with cell := { s.cell with settle := some s.cell.params.wakeSettle } }, [])
    else if s.guardLocked = true then some (s, [.enter .running]) else some (s.startLockWait, []) := by
  simp only [cellRule, h, ha, Bool.false_eq_true, if_false, settled, State.setCell, ne_eq, ite_not, apply_ite some]

/-- An order of a lay origin is in flight, announced, posted or waiting in some slot. -/
def State.laysAtWork (s : State) : Prop := ∃ x ∈ s.slots, ∃ o ∈ x.orders, ∃ c ∈ o.sources, c.lay?.isSome = true

theorem stopped_iff (s : State) : s.stopped = true ↔ ¬s.laysAtWork ∧ (s.gate.state = .closed ∨ s.gate.state = .lockedOut) := by
  simp only [State.stopped, Bool.and_eq_true, Bool.or_eq_true, decide_eq_true_eq, Bool.not_eq_true', Bool.eq_false_iff, ne_eq,
    State.outstanding, List.any_eq_true, Source.isLayOrigin, State.laysAtWork]

theorem cellRule_stopping {_ : Decidable s.laysAtWork} (h : s.cell.state = .stopping) : cellRule s =
    if ¬s.laysAtWork ∧ (s.gate.state = .closed ∨ s.gate.state = .lockedOut) then some (s, [.enter .standby]) else none := by
  simp only [cellRule, h, ← stopped_iff]

theorem cellRule_parking (h : s.cell.state = .parking) :
    cellRule s = if s.awaiting = true then none else some (s, [.enter .parked]) := by simp only [cellRule, h]

/-- The other states end by a request or an event, not by a condition. -/
theorem cellRule_stays (h : s.cell.state = .off ∨ s.cell.state = .standby ∨ s.cell.state = .running ∨ s.cell.state = .halted ∨
    s.cell.state = .parked) : cellRule s = none := by
  rcases h with h | h | h | h | h <;> simp only [cellRule, h]

theorem idleRule_running (h : s.cell.idle.isSome = true) : idleRule s =
    if s.lays.all Option.isNone = true then none else some ({ s with cell := { s.cell with idle := none } }, []) := by
  obtain ⟨ms, hms⟩ := Option.isSome_iff_exists.mp h
  rw [idleRule, hms]; rfl

theorem idleRule_absent (h : s.cell.idle = none) : idleRule s =
    if s.cell.state = .running ∧ s.lays.all Option.isNone = true ∧ s.cell.params.idlePark ≠ 0 then
      some ({ s with cell := { s.cell with idle := some s.cell.params.idlePark } }, []) else none := by
  rw [idleRule, h]; rfl

/-! ### Entries (R136, R150, R151, R159, R167, R168) -/

theorem mayEnter_iff (s : State) (st : CellState) :
    s.mayEnter st = true ↔ st ≠ .halted ∧ (s.cell.state = .halted → st = .standby ∨ st = .off) := by
  simp only [State.mayEnter, Bool.and_eq_true, Bool.or_eq_true, decide_eq_true_eq, or_assoc, Decidable.imp_iff_not_or]

theorem enterState_barred {st : CellState} (h : s.cell.state = .halted) (h1 : st ≠ .standby) (h2 : st ≠ .off) :
    enterState st s = (s, []) := by
  have hm : ¬s.mayEnter st = true := fun hm => by
    obtain ⟨-, hleaves⟩ := (mayEnter_iff s st).mp hm
    exact (hleaves h).elim h1 h2
  exact if_pos (Bool.eq_false_iff.mpr hm)

theorem resume_eq (st : CellState) (d : Delivery) : d.resume st =
    { d with pieces := if st = .running then d.pieces.map fun p => { p with late := false } else d.pieces } := by
  unfold Delivery.resume; split <;> rfl

theorem enterState_enters {st : CellState} (h : st ≠ .halted) (hh : s.cell.state = .halted → st = .standby ∨ st = .off) :
    enterState st s = ({ s with
        cell := s.cell.goTo st
        events := { s.events with haltCause := none }
        delivery := { s.delivery with
          pieces := if st = .running then s.delivery.pieces.map fun p => { p with late := false } else s.delivery.pieces } },
      .raise .cellState .none st.index ::
        (if st = .parked ∧ s.cell.wakeWanted = true then [.enter .waking] else if st = .waking then [.wakeTest] else [])) := by
  have hm : ¬s.mayEnter st = false := by rw [(mayEnter_iff s st).mpr ⟨h, hh⟩]; decide
  unfold enterState
  rw [if_neg hm, resume_eq]
  refine congrArg (fun work => (_, Task.raise .cellState .none st.index :: work)) ?_
  cases st with
  | parked => simp
  | off | probing | standby | starting | running | stopping | halted | parking | waking => rfl

theorem wakeTest_notReady (h : s.kindsReady = false) : wakeTest s = startFails s := if_pos h

section
variable (h : s.kindsReady = true)
include h

theorem wakeTest_guardOpen (hg : s.guardClosed = false) :
    wakeTest s = (s, [.raise .guardOpen (.slot ((s.working .guard).getD 0)) 0]) :=
  (if_neg (by simp [h])).trans (if_pos hg)

theorem wakeTest_wakes (hg : s.guardClosed = true) : wakeTest s = (s, s.driveOrders true ++ s.postTo .guard .lock (.cell true)) :=
  (if_neg (by simp [h])).trans (if_neg (by simp [hg]))

end

/-! ### The ends of Cell Control's orders (R161, R162, R167, R168) -/

theorem cellEnds_starting (tag : Option Nat) (how : End) (h : s.cell.state = .starting ∨ s.cell.state = .waking) :
    cellEnds tag how s = if how.isDone = true then (s, []) else startFails s := by
  rcases h with h | h <;> simp only [cellEnds, h]

theorem cellEnds_parking (tag : Option Nat) (how : End) (h : s.cell.state = .parking) :
    cellEnds tag how s = (s, if tag.isSome = true then [.parkTest] else []) := by simp only [cellEnds, h]

theorem parkTest_parks (h : s.cell.state = .parking) (ha : s.awaiting = false) : parkTest s = (s, [.enter .parked]) :=
  congrArg (Prod.mk s) (if_pos ⟨h, ha⟩)

theorem parkTest_waits (h : s.cell.state ≠ .parking ∨ s.awaiting = true) : parkTest s = (s, []) :=
  congrArg (Prod.mk s) (if_neg fun ⟨hp, ha⟩ => h.elim (· hp) (by simp [ha]))

end

/-- Settles O11: the timers' expiries, `cellRule` state by state, the entries with their tests, and the ends of Cell Control's orders. -/
theorem cellTimersExpire : Obligations.CellTimersExpire := by
  refine ⟨fun s hr => ?timers, fun s => ?rules, fun s st => ?entries⟩
  case timers =>
    exact ⟨fun h => exec_idleTimerExpiry hr (idleExpiry_running h), fun h => exec_idleTimerExpiry hr (idleExpiry_absent h),
      fun h hg => exec_wakeSettleExpiry hr ((settleExpiry_running h).trans (settled_locked hg)),
      fun h hg => exec_wakeSettleExpiry hr ((settleExpiry_running h).trans (settled_unlocked hg)),
      fun h => exec_wakeSettleExpiry hr (settleExpiry_absent h), fun h => exec_lockWaitExpiry hr (lockWaitExpiry_running h),
      fun h => exec_lockWaitExpiry hr (lockWaitExpiry_absent h)⟩
  case rules =>
    intro lockWaits laysAtWork
    exact ⟨cellRule_probing, cellRule_awaits, cellRule_starting, cellRule_waking, cellRule_stopping, cellRule_parking, cellRule_stays,
      idleRule_running, idleRule_absent⟩
  case entries =>
    exact ⟨enterState_barred, enterState_enters, wakeTest_notReady, wakeTest_guardOpen, wakeTest_wakes, fun k tag kind how =>
      ⟨cellEnds_starting tag how, cellEnds_parking tag how, parkTest_parks, parkTest_waits⟩⟩

end Sys2Proof.Machine
end

section
/-! The links' transmitters and the Management Unit (spec file 10): which frame the idle U-port transmitter takes, how it and the
Management Unit take turns at a gained lock and at a frame's end, and the ends of ORDER frames. -/

namespace Sys2Proof.Machine

/-! ### The copy queue (R180) -/

theorem takeCopy_joins {s : State} (c : Copy) (h : s.link.copies.length < 8) :
    takeCopy c s = ({ s with link := { s.link with copies := s.link.copies ++ [c] } }, []) := if_pos h

theorem takeCopy_dropped {s : State} (c : Copy) (h : 8 ≤ s.link.copies.length) : takeCopy c s =
    ({ s with link := { s.link with
        sFlags := { s.link.sFlags with overrun := true, sum := true }
        uStats := { s.link.uStats with copiesDropped := bump32 s.link.uStats.copiesDropped } } },
      [.raise .linkOverrun .none 1]) := if_neg (Nat.not_lt.mpr h)

/-! ### The idle U-port transmitter (R153, R176, R182) -/

/-- The lowest kind that owes a notice is found before every later one. -/
theorem firstOwed_eq_some {e : EventUnit} {i : Nat} {o : Subject × Nat} (hi : i < 32) (ho : (e.kindAt i).owed = some o)
    (hb : ∀ j < i, (e.kindAt j).owed = none) : e.firstOwed = some (i, o.1, o.2) := by
  have hsplit : List.range 32 = List.range i ++ (List.range (32 - i)).map (i + ·) := by
    rw [← List.range_add, Nat.add_sub_cancel' hi.le]
  obtain ⟨n, hn⟩ : ∃ n, 32 - i = n + 1 := ⟨31 - i, by omega⟩
  have hbefore : (List.range i).findSome? (fun i => (e.kindAt i).owed.map fun o => (i, o.1, o.2)) = none :=
    List.findSome?_eq_none_iff.mpr fun j hj => by rw [hb j (List.mem_range.mp hj)]; rfl
  rw [EventUnit.firstOwed, hsplit, List.findSome?_append, hbefore, hn, List.range_succ_eq_map]
  simp [ho]

theorem firstOwed_eq_none {e : EventUnit} (h : ∀ i < 32, (e.kindAt i).owed = none) : e.firstOwed = none :=
  List.findSome?_eq_none_iff.mpr fun i hi => by rw [h i (List.mem_range.mp hi)]; rfl

theorem takeFrame_rests {s : State} (h : s.link.sending.isSome = true ∨ s.link.uLock = false) : takeFrame s = s := if_pos h

section
variable {s : State} (hs : s.link.sending = none) (hl : s.link.uLock = true)
include hs hl

theorem takeFrame_answer {f : UFrame} {rest : List UFrame} (ha : s.link.answers = f :: rest) :
    takeFrame s = { s with link := { s.link with
      sending := some f, answers := rest
      credit := if f.kind = .directAnswer then s.link.credit - 1 else s.link.credit } } := by
  rw [takeFrame, if_neg (by simp [hs, hl]), ha]; rfl

variable (ha : s.link.answers = [])
include ha

theorem takeFrame_notice {i : Nat} {subject : Subject} {detail : Nat} (ho : s.events.firstOwed = some (i, subject, detail)) :
    takeFrame s = { s with
      link := { s.link with sending := some (noticeFrame i subject detail) }
      events := s.events.modifyKind i fun r => { r with owed := none } } := by
  rw [takeFrame, if_neg (by simp [hs, hl]), ha]
  simp only [ho]; rfl

theorem takeFrame_copy {c : Copy} {rest : List Copy} (ho : s.events.firstOwed = none) (hc : s.link.copies = c :: rest) :
    takeFrame s = { s with link := { s.link with sending := some (copyFrame c), copies := rest } } := by
  rw [takeFrame, if_neg (by simp [hs, hl]), ha]
  simp only [ho, hc]; rfl

theorem takeFrame_nothing (ho : s.events.firstOwed = none) (hc : s.link.copies = []) : takeFrame s = s := by
  rw [takeFrame, if_neg (by simp [hs, hl]), ha]
  simp only [ho, hc]

end

/-- Settles O26: the two branches of `takeCopy`, then those of `takeFrame` in its order: answers, owed notices, copies. -/
theorem transmitterTakesInOrder : Obligations.TransmitterTakesInOrder := by
  refine ⟨fun s c => ⟨takeCopy_joins c, takeCopy_dropped c⟩, fun s => ⟨takeFrame_rests, fun hs hl => ?_⟩⟩
  refine ⟨fun f rest => takeFrame_answer hs hl, fun i subject detail ha hi ho hb => ?_, fun ha ho => ?_⟩
  · exact takeFrame_notice hs hl ha (firstOwed_eq_some hi ho hb)
  · have hnone := firstOwed_eq_none ho
    exact ⟨fun c rest => takeFrame_copy hs hl ha hnone, takeFrame_nothing hs hl ha hnone⟩

/-! ### Turns of the transmitter and the Management Unit (R182, R187) -/

/-- The head request is executed with `rest` behind it, and the transmitter takes what it may. -/
def State.executing (v : State) (e : MgmtEntry) (rest : List MgmtEntry) : State := takeFrame (executeHead e { v with mgmt := rest })

theorem executing_mgmt (v : State) (e : MgmtEntry) (rest : List MgmtEntry) : (v.executing e rest).mgmt = rest := by
  rw [State.executing, takeFrame_mgmt]
  exact congrArg (fun f => f.2.2.1) (executeHead_requestFrame e { v with mgmt := rest })

theorem pumpAll_rests {v : State} (h : v.mgmt = [] ∨ (takeFrame v).replyWaits = true) : pumpAll v = takeFrame v :=
  h.elim (fun hm => pump_idle 8 ((takeFrame_mgmt v).trans hm)) (pump_waits 8)

/-- A command that lets the transmitter and the Management Unit take turns, where a request waits and no REPLY does: the head request is
executed, and the next one where the transmitter takes the head's REPLY at once; it is then sending, so the next one's REPLY waits. -/
theorem exec_turns {c : Instr} {s v : State} {e : MgmtEntry} {rest : List MgmtEntry} (hc : exec c s = .next (pumpAll v))
    (hm : v.mgmt = e :: rest) (hr : (takeFrame v).replyWaits = false) :
    let a := (takeFrame v).executing e rest
    a.mgmt = rest ∧ (rest = [] ∨ a.replyWaits = true → exec c s = .next a) ∧
      ∀ e' rest', rest = e' :: rest' → a.replyWaits = false →
        exec c s = .next (a.executing e' rest') ∧ (a.executing e' rest').mgmt = rest' ∧ (a.executing e' rest').replyWaits = true := by
  have hm' : (takeFrame v).mgmt = e :: rest := (takeFrame_mgmt v).trans hm
  refine ⟨executing_mgmt _ e rest, fun hw => ?_, ?_⟩
  · exact hc.trans (congrArg Host.Outcome.next (pump_head 7 hm' hr hw))
  · rintro e' rest' rfl hw
    have hsending := takeFrame_tookReply (executeHead_replyWaits _ _) hw
    exact ⟨hc.trans (congrArg Host.Outcome.next (pump_two 6 hm' hr hw)), executing_mgmt _ e' rest', executeHead_second hsending⟩

/-! ### The U-port's lock (R173, R183, log 23) -/

section
variable {s : State} (hr : s.resetHeld = false)
include hr

theorem exec_lockGained (h : s.link.uLock = false) :
    exec .uPortLockGained s = .next (pumpAll { s with link := { s.link with uLock := true } }) := by
  change execUPortLockGained s = _
  rw [execUPortLockGained, unlessReset_free hr, if_neg (by simp [h])]; rfl

theorem exec_lockGained_locked (h : s.link.uLock = true) : exec .uPortLockGained s = .next s := by
  change execUPortLockGained s = _
  rw [execUPortLockGained, unlessReset_free hr, if_pos h]

theorem exec_lockLost_unlocked (receiving : Bool) (h : s.link.uLock = false) : exec (.uPortLockLost receiving) s = .next s := by
  change execUPortLockLost receiving s = _
  rw [execUPortLockLost, unlessReset_free hr, if_pos h]

theorem exec_lockLost (receiving : Bool) (h : s.link.uLock = true) : exec (.uPortLockLost receiving) s =
    .next (if receiving then event (fun s => rejectFrame .u 1 (some .framing) (loseLock s)) s else loseLock s) := by
  change execUPortLockLost receiving s = _
  rw [execUPortLockLost, unlessReset_free hr, if_neg (by simp [h])]

end

/-- Settles O23: a gained lock is a turn of the transmitter and the Management Unit; a lost one cuts off both frames. -/
theorem uPortLockChanges : Obligations.UPortLockChanges := by
  intro s hr
  refine ⟨fun h => ⟨fun hw => ?idle, fun e rest hm hw => exec_turns (exec_lockGained hr h) hm hw⟩,
    fun h => ⟨_, exec_lockGained hr h, ?locked⟩, exec_lockGained_locked hr, exec_lockLost hr false, exec_lockLost hr true,
    exec_lockLost_unlocked hr⟩
  case idle => exact (exec_lockGained hr h).trans (congrArg Host.Outcome.next (pumpAll_rests hw))
  case locked =>
    obtain ⟨-, -, hlock, -⟩ := pumpAll_keeps { s with link := { s.link with uLock := true } }
    exact hlock

/-! ### The ends of sent frames (R181, R182, R184) -/

section
variable {s : State} (hr : s.resetHeld = false)
include hr

theorem exec_frameEnd_idle (h : s.link.sending = none) : exec .uPortFrameEnd s = .next s := by
  change execUPortFrameEnd s = _
  rw [execUPortFrameEnd, unlessReset_free hr, frameEnds, h]

theorem exec_frameEnd_sent {f : UFrame} (h : s.link.sending = some f) : exec .uPortFrameEnd s =
    .next (pumpAll { s with link := { s.link with sending := none, uStats := s.link.uStats.sent f.kind } }) := by
  change execUPortFrameEnd s = _
  rw [execUPortFrameEnd, unlessReset_free hr, frameEnds, h]; rfl

theorem exec_orderFrameEnd_idle (h : s.link.leaving = none) : exec .orderFrameEnd s = .next s := by
  change execOrderFrameEnd s = _
  rw [execOrderFrameEnd, unlessReset_free hr, orderFrameEnds, h]

theorem exec_orderFrameEnd_sent (h : s.link.leaving.isSome = true) : exec .orderFrameEnd s = .next { s with link := { s.link with
    sStats := { s.link.sStats with orders := bump32 s.link.sStats.orders }
    leaving := s.link.output.head?
    output := s.link.output.tail } } := by
  obtain ⟨f, hf⟩ := Option.isSome_iff_exists.mp h
  change execOrderFrameEnd s = _
  rw [execOrderFrameEnd, unlessReset_free hr, orderFrameEnds, hf]
  cases ho : s.link.output with
  | nil => simp [State.setLink, State.countS, ho]
  | cons g rest => rfl

end

end Sys2Proof.Machine

namespace Sys2Proof

open Machine

/-- Settles O25: the end of a U-port frame is a turn of the transmitter and the Management Unit, whatever the frame's kind. -/
theorem frameEnds : Obligations.FrameEnds := by
  intro s hr
  refine ⟨exec_frameEnd_idle hr, fun f hf => ?_, exec_orderFrameEnd_idle hr, exec_orderFrameEnd_sent hr⟩
  exact ⟨fun hw => (exec_frameEnd_sent hr hf).trans (congrArg Host.Outcome.next (pumpAll_rests hw)),
    fun e rest hm hw => exec_turns (exec_frameEnd_sent hr hf) hm hw⟩

end Sys2Proof
end

section
/-! Received frames (spec files 10 and 12): what a failed check leads to on either port, a report that reaches no slot, the six checks in
their order, and the frames that pass them all. -/

namespace Sys2Proof.Machine

/-! ### What a failed check leads to (R173, R174, R184) -/

theorem rejectFrame_u (check : Nat) (flag : Option RxFlag) (s : State) : rejectFrame .u check flag s =
    ({ s with link := { s.link with
        uFlags := flag.elim s.link.uFlags fun f => s.link.uFlags.mark f
        uStats := if check ≤ 2 then { s.link.uStats with checkFailures := bump32 s.link.uStats.checkFailures }
          else { s.link.uStats with formatFailures := bump32 s.link.uStats.formatFailures } } },
      [.raise (if check ≤ 2 then .linkCheck else .linkFormat) .none 0]) := by
  by_cases hc : check ≤ 2 <;> cases flag <;>
    simp only [rejectFrame, State.countFailure, hc, decide_true, decide_false, if_true, if_false] <;> rfl

theorem rejectFrame_s (check : Nat) (flag : Option RxFlag) (s : State) : rejectFrame .s check flag s =
    ({ s with link := { s.link with
        sFlags := flag.elim s.link.sFlags fun f => s.link.sFlags.mark f
        sStats := if check ≤ 2 then { s.link.sStats with checkFailures := bump32 s.link.sStats.checkFailures }
          else { s.link.sStats with formatFailures := bump32 s.link.sStats.formatFailures } } },
      [.raise (if check ≤ 2 then .linkCheck else .linkFormat) .none 1]) := by
  by_cases hc : check ≤ 2 <;> cases flag <;>
    simp only [rejectFrame, State.countFailure, hc, decide_true, decide_false, if_true, if_false] <;> rfl

/-! ### Reports that reach no slot (R179, logs 7 and 30) -/

section
variable {s : State} {node : Nat} {tag : Byte} {r : Report}

theorem routeReport_unknown (h : s.slotAt node = none) : routeReport node tag r s =
    ({ s with link := { s.link with sStats := { s.link.sStats with
        good := bump32 s.link.sStats.good, reports := bump32 s.link.sStats.reports
        unknownNode := bump32 s.link.sStats.unknownNode } } }, [.raise .strayReport .none node]) := by
  rw [routeReport, h]; rfl

variable (hr : s.resetHeld = false)
include hr

theorem reportArrives_down (h : s.link.ringUp = false) : reportArrives node tag r s = s := by
  rw [reportArrives, unlessReset_free hr, if_pos h]

theorem reportArrives_addressed (h : s.link.ringUp = true) (hn : node ≤ 31) :
    reportArrives node tag r s = event (routeReport node tag r) s := by
  rw [reportArrives, unlessReset_free hr, if_neg (by simp [h]), if_pos (by simp [within, hn])]

theorem reportArrives_badAddress (h : s.link.ringUp = true) (hn : 31 < node) :
    reportArrives node tag r s = event (rejectFrame .s 6 none) s := by
  rw [reportArrives, unlessReset_free hr, if_neg (by simp [h]), if_neg (by simp [within, hn])]

end

/-- Settles O20: the three ways in which a report reaches no slot. -/
theorem unknownNodeIsStray : Obligations.UnknownNodeIsStray := by
  intro s node tag r hr
  rw [exec_reportCommand]
  refine ⟨fun hu hn hs => congrArg Host.Outcome.next ?unknown, fun hu hn => congrArg Host.Outcome.next ?badAddress,
    fun hd => congrArg Host.Outcome.next (reportArrives_down hr hd)⟩
  case unknown => rw [reportArrives_addressed hr hu hn, event, routeReport_unknown hs, State.after]
  case badAddress => rw [reportArrives_badAddress hr hu hn, event, rejectFrame_s]; rfl

/-! ### Check 1 (R173) -/

theorem receive_cut (port : Port) (bytes : List Byte) : receive port false bytes = .rejected 1 (some .framing) := by
  unfold receive; split
  · exact if_pos (Or.inl rfl)
  · rfl

theorem receive_miscounted (port : Port) (whole : Bool) (kind address tag length : Byte) (rest : List Byte)
    (h : rest.length ≠ length.toNat + 2) :
    receive port whole (kind :: address :: tag :: length :: rest) = .rejected 1 (some .framing) := if_pos (Or.inr h)

theorem receive_short (port : Port) (whole : Bool) (bytes : List Byte) (h : bytes.length < 6) :
    receive port whole bytes = .rejected 1 (some .framing) := by
  match bytes with
  | kind :: address :: tag :: length :: rest =>
    exact receive_miscounted port whole kind address tag length rest (by simp only [List.length_cons] at h; omega)
  | [] | [_] | [_, _] | [_, _, _] => rfl

/-! ### Check 4: the kinds a port receives (R173) -/

theorem checkKind_u_unknown {kind : Nat} (h1 : kind ≠ 1) (h2 : kind ≠ 2) (h3 : kind ≠ 3) (address : Nat) (tag : Byte)
    (payload : List Byte) : checkKind .u kind address tag payload = .rejected 4 none := by
  unfold checkKind; split <;> simp_all

theorem checkKind_s_unknown {kind : Nat} (h : kind ≠ 9) (address : Nat) (tag : Byte) (payload : List Byte) :
    checkKind .s kind address tag payload = .rejected 4 none := by
  unfold checkKind; split <;> simp_all

/-! ### The codes of orders and reports (Figures 57 and 58) -/

theorem orderCode_lt (o : OrderKind) : orderCode o < 18 := by cases o <;> simp [orderCode]

theorem exists_orderCode : ∀ n < 18, ∃ o, orderCode o = n := fun n hn => by
  have hall : ∀ n < 18, ∃ o ∈ [OrderKind.ident, .enable true, .lamp .on, .stop, .present 0, .lower, .jog 0,
      .moveLay .lift .jog, .move 0, .pushOut, .clamp 0, .release, .stroke, .rotate 0, .invert, .deliver .chute, .lock, .unlock],
      orderCode o = n := by decide
  obtain ⟨o, -, ho⟩ := hall n hn
  exact ⟨o, ho⟩

theorem reportCode_lt (r : Report) : reportCode r < 9 := by cases r <;> simp [reportCode]

theorem exists_reportCode : ∀ n < 9, ∃ r, reportCode r = n := fun n hn => by
  have hall : ∀ n < 9, ∃ r ∈ [Report.identAns .lift ⟨true, true, true, true⟩, .done 0, .refused .cannot, .pos 0, .strokeBegin,
      .fault 0, .button, .presence true, .guardState true true], reportCode r = n := by decide
  obtain ⟨r, -, hr⟩ := hall n hn
  exact ⟨r, hr⟩

theorem orderLength_orderCode (o : OrderKind) : orderLength (orderCode o) = some (encodeOrder o).length := by cases o <;> rfl

theorem orderLength_unknown {n : Nat} (h : ∀ o, orderCode o ≠ n) : orderLength n = none := by
  have hn : 18 ≤ n := Nat.not_lt.mp fun hlt => (exists_orderCode n hlt).elim h
  obtain ⟨k, rfl⟩ := Nat.exists_eq_add_of_le' hn
  rfl

theorem reportLength_reportCode (r : Report) : reportLength (reportCode r) = some (encodeReport r).length := by cases r <;> rfl

theorem reportLength_unknown {n : Nat} (h : ∀ r, reportCode r ≠ n) : reportLength n = none := by
  have hn : 9 ≤ n := Nat.not_lt.mp fun hlt => (exists_reportCode n hlt).elim h
  obtain ⟨k, rfl⟩ := Nat.exists_eq_add_of_le' hn
  rfl

theorem toNat_orderCode (o : OrderKind) : (byteOf (orderCode o)).toNat = orderCode o :=
  toNat_byteOf ((orderCode_lt o).trans (by decide))

theorem toNat_reportCode (r : Report) : (byteOf (reportCode r)).toNat = reportCode r :=
  toNat_byteOf ((reportCode_lt r).trans (by decide))

theorem encodeOrder_length_le (o : OrderKind) : (encodeOrder o).length ≤ 5 := by
  cases o <;> simp [encodeOrder, orderArgs, nat16, nat32, be16, be32]

theorem encodeReport_length_le (r : Report) : (encodeReport r).length ≤ 5 := by
  cases r <;> simp [encodeReport, reportArgs, be32]

/-- A payload that an order is encoded as begins with that order's code. -/
theorem orderCode_of_encode {q : OrderKind} {code : Byte} {args : List Byte} (h : encodeOrder q = code :: args) :
    orderCode q = code.toNat := by
  obtain ⟨hcode, -⟩ := List.cons.inj h
  rw [← hcode, toNat_orderCode]

theorem reportCode_of_encode {q : Report} {code : Byte} {args : List Byte} (h : encodeReport q = code :: args) :
    reportCode q = code.toNat := by
  obtain ⟨hcode, -⟩ := List.cons.inj h
  rw [← hcode, toNat_reportCode]

/-! ### Check 5 where the payload's code gives its length (R197) -/

section
variable {lengthOf : Nat → Option Nat} {code : Byte} {args : List Byte}

theorem codedLengthOk_known {n : Nat} (h : lengthOf code.toNat = some n) :
    codedLengthOk lengthOf (code :: args) = decide (n = (code :: args).length) := by
  simp only [codedLengthOk, h, List.length_cons, eq_comm]

theorem codedLengthOk_unknown (h : lengthOf code.toNat = none) :
    codedLengthOk lengthOf (code :: args) = decide ((code :: args).length ≤ 5) := by
  simp only [codedLengthOk, h, List.length_cons]

end

theorem codedLengthOk_encodeOrder (o : OrderKind) : codedLengthOk orderLength (encodeOrder o) = true :=
  (codedLengthOk_known ((toNat_orderCode o).symm ▸ orderLength_orderCode o)).trans (decide_eq_true rfl)

theorem codedLengthOk_encodeReport (r : Report) : codedLengthOk reportLength (encodeReport r) = true :=
  (codedLengthOk_known ((toNat_reportCode r).symm ▸ reportLength_reportCode r)).trans (decide_eq_true rfl)

/-! ### Checks 5 and 6 of each kind (R173, R197) -/

section
variable (address : Nat) (tag : Byte) {payload : List Byte}

theorem checkKind_ticket_length (h : payload.length ≠ 17) : checkKind .u 1 address tag payload = .rejected 5 (some .length) := if_pos h

theorem checkKind_ticket_field {address} (hl : payload.length = 17)
    (h : address ≠ 0 ∨ ¬∃ t, ticketInRange t = true ∧ encodeTicket t = payload) :
    checkKind .u 1 address tag payload = .rejected 6 none := by
  refine (if_neg (not_not.mpr hl)).trans (ite_eq_left_iff.mpr fun ha => ?_)
  cases hp : parseTicket payload with
  | none => rfl
  | some t =>
    obtain ⟨he, hr⟩ := encodeTicket_of_parse hp
    exact absurd ⟨t, hr, he⟩ (h.resolve_left ha)

theorem checkKind_ticket_good {t : Ticket} (hl : payload.length = 17) (h : parseTicket payload = some t) :
    checkKind .u 1 0 tag payload = .ticket t := by
  refine (if_neg (not_not.mpr hl)).trans ((if_neg (not_not.mpr rfl)).trans ?_)
  rw [h]

theorem checkKind_mgmt_length : checkKind .u 2 address tag [] = .rejected 5 (some .length) := rfl

theorem checkKind_mgmt_field {address} (hl : payload ≠ []) (h : address ≠ 0) :
    checkKind .u 2 address tag payload = .rejected 6 none :=
  (if_neg (mt List.length_eq_zero_iff.mp hl)).trans (if_pos h)

theorem checkKind_mgmt_good (hl : payload ≠ []) : checkKind .u 2 0 tag payload = .mgmt tag payload :=
  if_neg (mt List.length_eq_zero_iff.mp hl)

theorem checkKind_direct_length (h : codedLengthOk orderLength payload = false) :
    checkKind .u 3 address tag payload = .rejected 5 (some .length) := if_pos h

theorem checkKind_direct_field {address} (hl : codedLengthOk orderLength payload = true)
    (h : address < 1 ∨ 30 < address ∨ ¬∃ q, orderInRange q = true ∧ encodeOrder q = payload) :
    checkKind .u 3 address tag payload = .rejected 6 none := by
  refine (if_neg (by simp [hl])).trans (ite_eq_left_iff.mpr fun ha => ?_)
  cases hp : parseOrder payload with
  | none => rfl
  | some o =>
    obtain ⟨he, hr⟩ := encodeOrder_of_parse hp
    have hin : 1 ≤ address ∧ address ≤ 30 := by simpa [within] using ha
    exact absurd ⟨o, hr, he⟩ ((h.resolve_left (by omega)).resolve_left (by omega))

theorem checkKind_direct_good {address} {o : OrderKind} (hl : codedLengthOk orderLength payload = true) (h1 : 1 ≤ address)
    (h30 : address ≤ 30) (h : parseOrder payload = some o) : checkKind .u 3 address tag payload = .direct address tag o := by
  refine (if_neg (by simp [hl])).trans ((if_neg (by simp [within, h1, h30])).trans ?_)
  rw [h]

theorem checkKind_report_length (h : codedLengthOk reportLength payload = false) :
    checkKind .s 9 address tag payload = .rejected 5 (some .length) := if_pos h

theorem checkKind_report_field {address} (hl : codedLengthOk reportLength payload = true)
    (h : 31 < address ∨ ¬∃ q, encodeReport q = payload) : checkKind .s 9 address tag payload = .rejected 6 none := by
  refine (if_neg (by simp [hl])).trans (ite_eq_left_iff.mpr fun ha => ?_)
  cases hp : parseReport payload with
  | none => rfl
  | some r =>
    have hin : address ≤ 31 := by simpa [within] using ha
    exact absurd ⟨r, encodeReport_of_parse hp⟩ (h.resolve_left (by omega))

theorem checkKind_report_good {address} {r : Report} (hl : codedLengthOk reportLength payload = true) (h31 : address ≤ 31)
    (h : parseReport payload = some r) : checkKind .s 9 address tag payload = .report address tag r := by
  refine (if_neg (by simp [hl])).trans ((if_neg (by simp [within, h31])).trans ?_)
  rw [h]

end

/-! ### Checks 5 and 6 of a DIRECT and of a REPORT by their code (R197) -/

section
variable {address : Nat} {code : Byte} {args : List Byte} (tag : Byte)

theorem checkKind_direct_known (o : OrderKind) (ho : orderCode o = code.toNat) :
    ((encodeOrder o).length ≠ (code :: args).length →
      checkKind .u 3 address tag (code :: args) = .rejected 5 (some .length)) ∧
    ((encodeOrder o).length = (code :: args).length →
      (address < 1 ∨ 30 < address ∨ ¬∃ q, orderInRange q = true ∧ encodeOrder q = code :: args) →
      checkKind .u 3 address tag (code :: args) = .rejected 6 none) := by
  have hlen := codedLengthOk_known (args := args) (ho ▸ orderLength_orderCode o)
  exact ⟨fun hl => checkKind_direct_length address tag (hlen.trans (decide_eq_false hl)),
    fun hl => checkKind_direct_field tag (hlen.trans (decide_eq_true hl))⟩

theorem checkKind_direct_unknown (h : ∀ o, orderCode o ≠ code.toNat) : checkKind .u 3 address tag (code :: args) =
    if (code :: args).length ≤ 5 then .rejected 6 none else .rejected 5 (some .length) := by
  have hlen := codedLengthOk_unknown (args := args) (orderLength_unknown h)
  split
  · exact checkKind_direct_field tag (hlen.trans (decide_eq_true ‹_›))
      (Or.inr (Or.inr fun ⟨q, _, hq⟩ => h q (orderCode_of_encode hq)))
  · exact checkKind_direct_length address tag (hlen.trans (decide_eq_false ‹_›))

theorem checkKind_report_known (r : Report) (hr : reportCode r = code.toNat) :
    ((encodeReport r).length ≠ (code :: args).length →
      checkKind .s 9 address tag (code :: args) = .rejected 5 (some .length)) ∧
    ((encodeReport r).length = (code :: args).length → (31 < address ∨ ¬∃ q, encodeReport q = code :: args) →
      checkKind .s 9 address tag (code :: args) = .rejected 6 none) := by
  have hlen := codedLengthOk_known (args := args) (hr ▸ reportLength_reportCode r)
  exact ⟨fun hl => checkKind_report_length address tag (hlen.trans (decide_eq_false hl)),
    fun hl => checkKind_report_field tag (hlen.trans (decide_eq_true hl))⟩

theorem checkKind_report_unknown (h : ∀ r, reportCode r ≠ code.toNat) : checkKind .s 9 address tag (code :: args) =
    if (code :: args).length ≤ 5 then .rejected 6 none else .rejected 5 (some .length) := by
  have hlen := codedLengthOk_unknown (args := args) (reportLength_unknown h)
  split
  · exact checkKind_report_field tag (hlen.trans (decide_eq_true ‹_›)) (Or.inr fun ⟨q, hq⟩ => h q (reportCode_of_encode hq))
  · exact checkKind_report_length address tag (hlen.trans (decide_eq_false ‹_›))

end

/-! ### BAD_FRAME (R173, R174, logs 7 and 30) -/

section
variable {s : State} {whole : Bool} {bytes : List Byte} (hr : s.resetHeld = false)
include hr

theorem exec_badFrame_deaf {port : Port} (h : s.receives port = false) : exec (.badFrame port whole bytes) s = .next s := by
  change execBadFrame port whole bytes s = _
  rw [execBadFrame, frameArrives, unlessReset_free hr, if_pos h]

theorem exec_badFrame_rejected {port : Port} {check : Nat} {flag : Option RxFlag} (h : s.receives port = true)
    (hb : receive port whole bytes = .rejected check flag) :
    exec (.badFrame port whole bytes) s = .next (event (rejectFrame port check flag) s) := by
  change execBadFrame port whole bytes s = _
  rw [execBadFrame, hb, frameArrives, unlessReset_free hr, if_neg (by simp [h])]

end

/-- Settles O27: check 1, then checks 2 and 3 by `receive_delimited`, then checks 4 to 6 by the frame's kind and its payload's code; and
what BAD_FRAME does with the check that failed. -/
theorem badFrameIsDiscarded : Obligations.BadFrameIsDiscarded := by
  refine ⟨receive_cut, receive_short, receive_miscounted, fun port kind address tag length hi lo payload hpl => ?checks,
    fun s whole bytes hr => ⟨exec_badFrame_deaf (port := .u) hr, exec_badFrame_deaf (port := .s) hr, fun check flag => ?effect⟩⟩
  case checks =>
    intro sum got wrongLength wrongField
    have hgot : got = _ := receive_delimited port kind address tag length hi lo payload hpl
    refine ⟨fun hs => hgot.trans (if_pos hs), fun hs h240 => hgot.trans ((if_neg (not_not.mpr hs)).trans (if_pos h240)),
      fun hs h240 => ?_⟩
    have hkind : got = checkKind port kind.toNat address.toNat tag payload :=
      hgot.trans ((if_neg (not_not.mpr hs)).trans (if_neg (Nat.not_lt.mpr h240)))
    have hcode {n : Nat} (hn : n < 256) (hne : kind ≠ BitVec.ofNat 8 n) : kind.toNat ≠ n := fun h =>
      hne (BitVec.eq_of_toNat_eq (h.trans (toNat_byteOf hn).symm))
    have haddress (hne : address ≠ 0) : address.toNat ≠ 0 := fun h => hne (BitVec.eq_of_toNat_eq h)
    rw [hkind]
    refine ⟨?kindU, ?kindS, ?ticket, ?mgmt, ?direct, ?report⟩
    case kindU =>
      rintro rfl h1 h2 h3
      exact checkKind_u_unknown (hcode (by decide) h1) (hcode (by decide) h2) (hcode (by decide) h3) _ tag payload
    case kindS =>
      rintro rfl h9
      exact checkKind_s_unknown (hcode (by decide) h9) _ tag payload
    case ticket =>
      rintro rfl rfl
      exact ⟨checkKind_ticket_length _ tag, fun hl h => checkKind_ticket_field tag hl (h.imp_left haddress)⟩
    case mgmt =>
      rintro rfl rfl
      exact ⟨fun hp => hp ▸ checkKind_mgmt_length _ tag, fun hp h => checkKind_mgmt_field tag hp (haddress h)⟩
    case direct =>
      rintro rfl rfl
      refine ⟨fun hp => hp ▸ checkKind_direct_length _ tag rfl, ?_⟩
      rintro code args rfl
      exact ⟨checkKind_direct_known tag, checkKind_direct_unknown tag⟩
    case report =>
      rintro rfl rfl
      refine ⟨fun hp => hp ▸ checkKind_report_length _ tag rfl, ?_⟩
      rintro code args rfl
      exact ⟨checkKind_report_known tag, checkKind_report_unknown tag⟩
  case effect =>
    intro raised raisedS marked
    have hmark (r : RxFlags) : marked r = flag.elim r fun f => r.mark f := by
      cases flag with
      | none => rfl
      | some f => cases f <;> rfl
    rw [hmark, hmark]
    refine ⟨fun hu hb => (exec_badFrame_rejected (port := .u) hr hu hb).trans ?_,
      fun hu hb => (exec_badFrame_rejected (port := .s) hr hu hb).trans ?_⟩
    · rw [event, rejectFrame_u]; rfl
    · rw [event, rejectFrame_s]; rfl

/-! ### Encodings read back (Figures 56 to 58) -/

theorem within_iff {lo hi n : Nat} : within lo hi n = true ↔ lo ≤ n ∧ n ≤ hi := by simp [within]

theorem orderOf_encode {o : OrderKind} (h : orderInRange o = true) : orderOf (orderCode o) (orderArgs o) = some o := by
  cases o with
  | ident | stop | lower | pushOut | release | stroke | invert | lock | unlock => rfl
  | enable on => cases on <;> rfl
  | lamp v => cases v <;> rfl
  | deliver d => cases d <;> rfl
  | moveLay a b => cases a <;> cases b <;> rfl
  | present n =>
    obtain ⟨-, hn⟩ := within_iff.mp h
    show some (OrderKind.present (word32 _ _ _ _).toNat) = _
    rw [word32_parts, toNat_word32 (by omega)]
  | jog n =>
    obtain ⟨-, hn⟩ := within_iff.mp h
    show some (OrderKind.jog (word16 _ _).toNat) = _
    rw [word16_parts, toNat_word16 (by omega)]
  | move n =>
    obtain ⟨-, hn⟩ := within_iff.mp h
    show some (OrderKind.move (word32 _ _ _ _).toNat) = _
    rw [word32_parts, toNat_word32 (by omega)]
  | clamp n =>
    obtain ⟨-, hn⟩ := within_iff.mp h
    show some (OrderKind.clamp (byteOf n).toNat) = _
    rw [toNat_byteOf (by omega)]
  | rotate n =>
    obtain ⟨-, hn⟩ := within_iff.mp h
    show some (OrderKind.rotate (byteOf n).toNat) = _
    rw [toNat_byteOf (by omega)]

theorem parseOrder_encode {o : OrderKind} (h : orderInRange o = true) : parseOrder (encodeOrder o) = some o := by
  rw [encodeOrder, parseOrder, toNat_orderCode, orderOf_encode h, Option.filter_some, if_pos h]

theorem parseReport_encode (r : Report) : parseReport (encodeReport r) = some r := by
  cases r with
  | strokeBegin | button => rfl
  | fault c => exact parseReport_fault c
  | done v => exact (parseReport_done _ _ _ _).trans (by rw [word32_parts])
  | pos v => exact (parseReport_pos _ _ _ _).trans (by rw [word32_parts])
  | refused reason => cases reason <;> rfl
  | presence up => cases up <;> rfl
  | guardState isOpen locked => cases isOpen <;> cases locked <;> rfl
  | identAns kind caps =>
    refine (parseReport_identAns _ _).trans ?_
    rw [capsOf_capsByte]
    cases kind <;> rfl

theorem sizeOf?_present {x : Option Nat} (h : x.all (within 1 400000) = true) :
    (BitVec.ofNat 32 (x.getD 0)).toNat = x.getD 0 ∧ sizeOf? (x.getD 0) = x := by
  cases x with
  | none => exact ⟨rfl, rfl⟩
  | some n =>
    obtain ⟨h1, hn⟩ := within_iff.mp h
    exact ⟨toNat_word32 (Nat.lt_of_le_of_lt hn (by decide)), if_neg (Nat.ne_of_gt h1)⟩

theorem encodeTicket_length (t : Ticket) : (encodeTicket t).length = 17 := rfl

theorem parseTicket_encode {t : Ticket} (h : ticketInRange t = true) : parseTicket (encodeTicket t) = some t := by
  have hfields := h
  simp only [ticketInRange, Bool.and_eq_true, within_iff] at hfields
  obtain ⟨⟨⟨⟨⟨-, hjob⟩, -, hpile⟩, -, hheight⟩, hx⟩, hy⟩ := hfields
  obtain ⟨hx, hx'⟩ := sizeOf?_present hx
  obtain ⟨hy, hy'⟩ := sizeOf?_present hy
  obtain ⟨job, pile, height, x, y, face⟩ := t
  simp only at hjob hpile hheight hx hx' hy hy'
  simp only [encodeTicket, nat16, nat32, be16, be32, List.cons_append, List.nil_append, parseTicket, word16_parts, word32_parts,
    toNat_word16 (Nat.lt_succ_of_le hjob), toNat_word16 (Nat.lt_succ_of_le hpile),
    toNat_word32 (Nat.lt_of_le_of_lt hheight (by decide : 400000 < 4294967296)), hx, hx', hy, hy']
  rcases face with _ | _ | _ <;> exact (Option.filter_some ..).trans (if_pos h)

/-! ### Good frames (R172, R173) -/

/-- Settles O31: a good frame passes checks 1 to 3 by `receive_bytes`, and its payload is read back as what was encoded. -/
theorem framesRoundTrip : Obligations.FramesRoundTrip := by
  refine ⟨fun t tag h => ?ticket, fun tag payload h1 h240 => ?mgmt, fun node tag o h1 h30 h => ?direct, fun node tag r h31 => ?report⟩
  case ticket =>
    rw [receive_bytes .u _ (show (encodeTicket t).length ≤ 240 from (encodeTicket_length t).trans_le (by decide))]
    exact checkKind_ticket_good tag (encodeTicket_length t) (parseTicket_encode h)
  case mgmt =>
    rw [receive_bytes .u _ h240]
    exact checkKind_mgmt_good tag (List.length_pos_iff.mp h1)
  case direct =>
    rw [receive_bytes .u _ ((encodeOrder_length_le o).trans (by decide)), toNat_byteOf (by omega)]
    exact checkKind_direct_good tag (codedLengthOk_encodeOrder o) h1 h30 (parseOrder_encode h)
  case report =>
    rw [receive_bytes .s _ ((encodeReport_length_le r).trans (by decide)), toNat_byteOf (by omega)]
    exact checkKind_report_good tag (codedLengthOk_encodeReport r) h31 (parseReport_encode r)

end Sys2Proof.Machine
end

section
/-! DIRECT orders (spec file 10): the tests of R177, what a DIRECT frame leads to, and the DIRECT_ANSWER of each end. -/

namespace Sys2Proof.Machine

/-! ### The DIRECT_ANSWER of an order's end (R178) -/

theorem endFor_direct {s : State} {k : Nat} {c : SlotConfig} (hc : (s.slot k).config = some c) (tag : Option Nat) (o : OrderKind)
    (answerTag : Byte) (how : End) : perform (.endFor k tag o (.direct answerTag) how) s =
      ({ s with link := { s.link with answers := s.link.answers ++
        [{ kind := .directAnswer, address := c.node, tag := answerTag, payload := (directResult how).bytes }] } }, []) := by
  simp only [perform, endFor, directEnds, hc]; rfl

/-! ### The tests of R177 -/

/-- A slot takes a DIRECT of the order in the cell state, room in its posted queue apart (R177). -/
def Slot.permits (x : Slot) (o : OrderKind) (st : CellState) : Prop :=
  x.state = .ready ∧ (∀ kind, actionKind o = some kind → x.kind? = some kind) ∧ o ≠ .stroke ∧ o ≠ .ident ∧
    (∃ c, x.config = some c ∧ c.permitted.getLsbD (orderCode o) = true) ∧
    ((actionKind o).isSome = true → st ≠ .starting ∧ st ≠ .running ∧ st ≠ .stopping ∧ st ≠ .waking)

theorem barsActions_eq_false_iff (st : CellState) :
    st.barsActions = false ↔ st ≠ .starting ∧ st ≠ .running ∧ st ≠ .stopping ∧ st ≠ .waking := by cases st <;> decide

theorem actionKind_fits_iff (x : Slot) (o : OrderKind) :
    ((actionKind o).any fun k => !x.isKind k) = false ↔ ∀ kind, actionKind o = some kind → x.kind? = some kind := by
  cases actionKind o <;> simp [isKind_eq]

theorem orderPermitted_iff (x : Slot) (o : OrderKind) : (x.config.any fun c => c.permitted.getLsbD (orderCode o)) = true ↔
    ∃ c, x.config = some c ∧ c.permitted.getLsbD (orderCode o) = true := by
  cases x.config <;> simp

theorem cellAllows_iff (o : OrderKind) (st : CellState) : ((actionKind o).isSome && st.barsActions) = false ↔
    ((actionKind o).isSome = true → st ≠ .starting ∧ st ≠ .running ∧ st ≠ .stopping ∧ st ≠ .waking) := by
  rw [← barsActions_eq_false_iff]; cases (actionKind o).isSome <;> simp

section
variable {x : Slot} {o : OrderKind} {st : CellState}

theorem directRefusal_of_permits (h : x.permits o st) :
    directRefusal o x st = if 4 ≤ x.posted.length then some .queueFull else none := by
  obtain ⟨hready, hkind, hstroke, hident, hpermitted, hcell⟩ := h
  rw [directRefusal, if_neg (not_not.mpr hready), if_neg (by simp [(actionKind_fits_iff x o).mpr hkind]),
    if_neg (not_or.mpr ⟨hstroke, hident⟩), if_neg (by simp [(orderPermitted_iff x o).mpr hpermitted]),
    if_neg (by simp [(cellAllows_iff o st).mpr hcell])]

/-- Each test of R177 but that of the queue refuses with NOT_PERMITTED; where all of them pass the slot permits the order. -/
theorem directRefusal_of_not_permits (h : ¬x.permits o st) : directRefusal o x st = some .notPermitted := by
  unfold directRefusal
  refine ite_eq_left_iff.mpr fun hready => ite_eq_left_iff.mpr fun hkind => ite_eq_left_iff.mpr fun hends =>
    ite_eq_left_iff.mpr fun hpermitted => ite_eq_left_iff.mpr fun hcell => absurd ?_ h
  obtain ⟨hstroke, hident⟩ := not_or.mp hends
  exact ⟨not_not.mp hready, (actionKind_fits_iff x o).mp (Bool.eq_false_iff.mpr hkind), hstroke, hident,
    (orderPermitted_iff x o).mp (Bool.eq_true_of_not_eq_false hpermitted), (cellAllows_iff o st).mp (Bool.eq_false_iff.mpr hcell)⟩

end

/-! ### A DIRECT frame (R176 to R178) -/

theorem directRecords_eq (s : State) (k : Nat) : s.directRecords k = { s with seq := { s.seq with
    clamp := if s.working .clamp = some k then .unknown else s.seq.clamp
    gauge := if s.working .gauge = some k then .unknown else s.seq.gauge } } := by
  unfold State.directRecords
  by_cases hc : s.working .clamp = some k <;> by_cases hg : s.working .gauge = some k <;> simp only [hc, hg, if_true, if_false] <;> rfl

/-- A good DIRECT frame is taken: it is counted, and the credit rises (R176, R184). -/
def State.directTaken (s : State) (accepted refused : Nat) (answers : List UFrame) (q : Sequencer) : State :=
  { s with
    seq := q
    link := { s.link with
      credit := s.link.credit + 1
      answers := s.link.answers ++ answers
      uStats := { s.link.uStats with
        good := bump32 s.link.uStats.good, directsAccepted := accepted, directsRefused := refused } } }

/-- A good DIRECT frame is taken and answered with a refusal (R177). -/
def State.directRefused (s : State) (node : Nat) (tag : Byte) (r : DirectResult) : State :=
  s.directTaken s.link.uStats.directsAccepted (bump32 s.link.uStats.directsRefused) [directAnswer node tag r] s.seq

section
variable {s : State} {node : Nat} {o : OrderKind} (tag : Byte)

theorem takeDirect_overrun (h : 16 ≤ s.link.credit) : takeDirect node tag o (s.goodFrame .u) =
    ({ s with link := { s.link with
        uFlags := { s.link.uFlags with overrun := true, sum := true }
        uStats := { s.link.uStats with
          good := bump32 s.link.uStats.good, directOverruns := bump32 s.link.uStats.directOverruns } } },
      [.raise .linkOverrun .none 0]) := if_pos h

variable (h : s.link.credit < 16)
include h

theorem takeDirect_noSlot (hn : s.slotAt node = none) :
    takeDirect node tag o (s.goodFrame .u) = (s.directRefused node tag .notPermitted, []) := by
  refine (if_neg (Nat.not_le.mpr h)).trans ?_
  have hn' : (s.goodFrame .u).slotAt node = none := hn
  rw [hn']; rfl

variable {k : Nat} (hn : s.slotAt node = some k)
include hn

theorem takeDirect_refused {r : DirectResult} (hr : directRefusal o (s.slot k) s.cell.state = some r) :
    takeDirect node tag o (s.goodFrame .u) = (s.directRefused node tag r, []) := by
  refine (if_neg (Nat.not_le.mpr h)).trans ?_
  have hn' : (s.goodFrame .u).slotAt node = some k := hn
  have hr' : directRefusal o ((s.goodFrame .u).slot k) (s.goodFrame .u).cell.state = some r := hr
  simp only [hn', hr']; rfl

theorem takeDirect_accepted (hr : directRefusal o (s.slot k) s.cell.state = none) : takeDirect node tag o (s.goodFrame .u) =
    (s.directTaken (bump32 s.link.uStats.directsAccepted) s.link.uStats.directsRefused [] { s.seq with
        clamp := if s.working .clamp = some k then .unknown else s.seq.clamp
        gauge := if s.working .gauge = some k then .unknown else s.seq.gauge },
      [.post k ⟨o, [.direct tag]⟩]) := by
  refine (if_neg (Nat.not_le.mpr h)).trans ?_
  have hn' : (s.goodFrame .u).slotAt node = some k := hn
  have hr' : directRefusal o ((s.goodFrame .u).slot k) (s.goodFrame .u).cell.state = none := hr
  simp only [hn', hr', directRecords_eq, State.directTaken, List.append_nil]; rfl

end

section
variable {s : State} (h : s.listens) {node : Nat} {o : OrderKind} (tag : Byte)
include h

theorem exec_direct_outOfRange (hr : node < 1 ∨ 30 < node ∨ orderInRange o = false) :
    exec (.direct node tag o) s = .next (event (rejectFrame .u 6 none) s) := by
  have hbad : ¬(within 1 30 node && orderInRange o) = true := by
    rw [Bool.and_eq_true, within_iff]
    rintro ⟨⟨h1, h30⟩, ho⟩
    have hout := (hr.resolve_left (by omega)).resolve_left (by omega)
    simp [ho] at hout
  change execDirect node tag o s = _
  rw [execDirect, if_neg hbad, frameArrives_rejected h]

theorem exec_direct_after {t : State} {work : List Task} (h1 : 1 ≤ node) (h30 : node ≤ 30) (ho : orderInRange o = true)
    (he : takeDirect node tag o (s.goodFrame .u) = (t, work)) : exec (.direct node tag o) s = .next (t.after work) := by
  obtain ⟨hreset, hlock⟩ := h
  change execDirect node tag o s = _
  rw [execDirect, if_pos (by simp [within, h1, h30, ho]), frameArrives, unlessReset_free hreset, if_neg (by simp [State.receives, hlock])]
  simp only [event, he, State.after]

end

/-- Settles O30: the answers to an order's ends, check 6, and the branches of `takeDirect` with `directRefusal` by what the slot permits. -/
theorem directIsTested : Obligations.DirectIsTested := by
  refine ⟨fun s k tag o answerTag c hc => ?ends, fun s node tag o h hr => ?check6, fun s node tag o h h1 h30 ho => ?tests⟩
  case ends =>
    have answered := endFor_direct hc tag o answerTag
    exact ⟨fun value => answered (.done value), fun reason => answered (.refused reason), answered .timedOut, answered .dropped,
      answered .lost⟩
  case check6 => rw [exec_direct_outOfRange h tag hr, event, rejectFrame_u]; rfl
  case tests =>
    intro taken refusal permitted
    have leads {t work} (he : takeDirect node tag o (s.goodFrame .u) = (t, work)) := exec_direct_after h tag h1 h30 ho he
    refine ⟨fun hc => leads (takeDirect_overrun tag hc), fun hc hn => leads (takeDirect_noSlot tag hc hn), fun k hc hn => ?_⟩
    refine ⟨fun hp => leads (takeDirect_refused tag hc hn (directRefusal_of_not_permits hp)), fun hp hq => ?full, fun hp hq => ?room⟩
    case full => exact leads (takeDirect_refused tag hc hn ((directRefusal_of_permits hp).trans (if_pos hq)))
    case room => exact leads (takeDirect_accepted tag hc hn ((directRefusal_of_permits hp).trans (if_neg (Nat.not_le.mpr hq))))

end Sys2Proof.Machine
end

section
/-! Management requests (spec file 11): how a MGMT frame reaches the queue, and the requests that change no table: ECHO and the READ
rows. -/

namespace Sys2Proof.Machine

/-- Settles O1: the equation of `step` for a queue that is not empty. -/
theorem stepTakesFrontCommand : Obligations.StepTakesFrontCommand := fun _ _ _ => rfl

/-! ### The management queue (R175, R186) -/

theorem queueRequest_joins {s : State} (tag : Byte) (payload : List Byte) (h : s.mgmt.length < 4) :
    queueRequest tag payload s = { s with
      mgmt := s.mgmt ++ [⟨tag, payload⟩]
      link := { s.link with uStats := { s.link.uStats with
        good := bump32 s.link.uStats.good, requests := bump32 s.link.uStats.requests } } } := if_pos h

theorem queueRequest_overruns {s : State} (tag : Byte) (payload : List Byte) (h : 4 ≤ s.mgmt.length) :
    queueRequest tag payload s = State.after { s with link := { s.link with
      uFlags := { s.link.uFlags with overrun := true, sum := true }
      uStats := { s.link.uStats with
        good := bump32 s.link.uStats.good, requestOverruns := bump32 s.link.uStats.requestOverruns } } }
      [.raise .linkOverrun .none 0] := if_neg (Nat.not_lt.mpr h)

/-- The transmitter and the Management Unit both rest while a frame is sent and a REPLY waits behind it (R182, R187). -/
theorem pumpAll_busy {v : State} (hs : v.link.sending.isSome = true) (hr : v.replyWaits = true) : pumpAll v = v := by
  have hrest : takeFrame v = v := takeFrame_busy hs
  exact (pumpAll_rests (Or.inr (hrest.symm ▸ hr))).trans hrest

/-- The work of an event takes neither the frame being sent nor a REPLY that waits. -/
theorem pumpAll_after_busy {s : State} (hs : s.link.sending.isSome = true) (hr : s.replyWaits = true) (work : List Task) :
    pumpAll (s.after work) = s.after work := by
  have hafter : s.after work = complete (s, work) := takeFrame_busy (by rwa [complete_sending])
  rw [hafter]
  exact pumpAll_busy (by rwa [complete_sending]) (by rwa [complete_replyWaits])

/-- Settles O29: executed at once where nothing waits; behind a REPLY that waits, the two branches of `queueRequest`, after which the
transmitter and the Management Unit rest. -/
theorem mgmtFrameIsQueued : Obligations.MgmtFrameIsQueued := by
  intro s tag payload h1 h240
  have arrives (h : s.listens) : exec (.mgmt tag payload) s = .next (pumpAll (queueRequest tag payload s)) :=
    congrArg Host.Outcome.next (mgmt_arrives h1 h240 h)
  refine ⟨fun h => congrArg Host.Outcome.next (mgmt_executed h1 h240 h), fun h hs hr hq => ?joins, fun h hs hr hq => ?overruns⟩
  case joins =>
    rw [arrives h, queueRequest_joins tag payload hq]
    exact congrArg Host.Outcome.next (pumpAll_busy hs hr)
  case overruns =>
    rw [arrives h, queueRequest_overruns tag payload hq, pumpAll_after_busy]
    exacts [hs, hr]

/-! ### ECHO (R190) -/

theorem setLink_sameButLinks (s : State) (u : LinkUnit) : s.sameButLinks (s.setLink u) := ⟨rfl, rfl, rfl, rfl⟩

/-- The state a request is executed in differs in the links and the owed notices only. -/
theorem taking_sameButLinks (s : State) : s.sameButLinks s.taking := by
  unfold State.taking
  exact sameButLinks_trans (setLink_sameButLinks s _) (takeFrame_sameButLinks _)

/-- A REPLY changes nothing but the links and the owed notices. -/
theorem answered_sameButLinks (s : State) (tag : Byte) (r : Request) (result : Result) (body : List Byte) :
    s.sameButLinks (s.answered tag r result body) := by
  unfold State.answered State.answer
  exact sameButLinks_trans (setLink_sameButLinks s _) (takeFrame_sameButLinks _)

/-- A request row whose bytes do not parse is answered BAD_REQUEST (R198). -/
theorem unparsed_arrives {s : State} (tag : Byte) (r : Request) (hlen : (encodeRequest r).length ≤ 240) (h : s.awaitsRequest)
    (hp : parseRequest (encodeRequest r) = none) : requestArrives tag r s = .next (s.taking.answered tag r .badRequest []) := by
  have ha : answerOf (encodeRequest r) s.taking = refuse .badRequest s.taking := by rw [answerOf, hp]
  rw [requestArrives, mgmt_executed (by simp [encodeRequest]) hlen h, ha]; rfl

theorem encode_echo_length {data : List Byte} (h : data.length ≤ 239) : (encodeRequest (.echo data)).length ≤ 240 :=
  Nat.succ_le_succ h

/-- Settles O33: the bytes are read back up to 238 and do not parse at 239, the longest that still make a good frame. -/
theorem echoReturnsBytes : Obligations.EchoReturnsBytes := by
  intro s tag data h
  refine ⟨fun hd => ⟨_, ?answer, rfl, ?same⟩, fun hd => ?tooLong⟩
  case answer =>
    exact request_arrives tag _ (encode_echo_length (by omega)) h ((parseRequest_echo data).trans (if_pos hd))
  case same => exact sameButLinks_trans (taking_sameButLinks s) (answered_sameButLinks _ tag _ _ data)
  case tooLong =>
    exact unparsed_arrives tag _ (encode_echo_length hd.le) h ((parseRequest_echo data).trans (if_neg (by omega)))

/-! ### READ (R191): how a row is answered, and the views with an argument case by case -/

theorem parseRequest_encode_read (view : Byte) (arg : BitVec 16) (clear : Bool) :
    parseRequest (encodeRequest (.read view arg clear)) = some (.read view arg clear) := by
  refine (parseRequest_read _ _ _ _).trans ?_
  rw [flagOf_flagByte, word16_parts]; rfl

/-- A READ row is answered as `readView` answers it. -/
theorem read_arrives {s : State} (h : s.awaitsRequest) (tag view : Byte) (arg : BitVec 16) (clear : Bool) {a : Answer}
    (ha : readView view arg clear s.taking = a) :
    requestArrives tag (.read view arg clear) s = .next (a.state.answered tag (.read view arg clear) a.result a.body) := by
  subst ha
  exact request_arrives tag _ (encodeRequest_length _ (by simp) (by simp)) h (parseRequest_encode_read view arg clear)

section
variable {s : State} {n : BitVec 16} (clear : Bool)

theorem readView_lay_badArg (h : 8 ≤ n.toNat) : readView 1 n clear s = refuse .badArg s := if_pos h

theorem readView_lay_free (h : n.toNat < 8) (hl : s.lay? n.toNat = none) : readView 1 n clear s = refuse .notFound s := by
  refine (if_neg (Nat.not_le.mpr h)).trans ?_
  simp only [hl]

theorem readView_lay_live {l : Lay} (h : n.toNat < 8) (hl : s.lay? n.toNat = some l) :
    readView 1 n clear s = reading s (viewLay l) := by
  refine (if_neg (Nat.not_le.mpr h)).trans ?_
  simp only [hl]

theorem readView_slot_badArg (h : 12 ≤ n.toNat) : readView 2 n clear s = refuse .badArg s := if_pos h

theorem readView_slot (h : n.toNat < 12) : readView 2 n clear s = reading s (viewSlot (s.slot n.toNat)) := if_neg (Nat.not_le.mpr h)

theorem readView_job_badArg (h : n.toNat = 0) : readView 4 n clear s = refuse .badArg s := if_pos h

theorem readView_job_missing (h : n.toNat ≠ 0) (hj : s.job? n.toNat = none) : readView 4 n clear s = refuse .notFound s := by
  refine (if_neg h).trans ?_
  simp only [hj]

theorem readView_job_present {e : JobEntry} (h : n.toNat ≠ 0) (hj : s.job? n.toNat = some e) :
    readView 4 n clear s = reading s (viewJob s e) := by
  refine (if_neg h).trans ?_
  simp only [hj]

theorem readView_program_badArg (h : 64 ≤ n.toNat) : readView 6 n clear s = refuse .badArg s := if_pos h

theorem readView_program (h : n.toNat < 64) : readView 6 n clear s = reading s (viewProgram s n.toNat) :=
  if_neg (Nat.not_le.mpr h)

end

theorem taking_viewJob (s : State) (e : JobEntry) : viewJob s.taking e = viewJob s e := by rw [viewJob, viewJob, taking_intake]

theorem taking_viewProgram (s : State) (p : Nat) : viewProgram s.taking p = viewProgram s p := by
  simp only [viewProgram, State.boundLays, taking_program, taking_order, taking_lay?]

/-- Settles O34: each row without an argument selects its view of the state the request is executed in. -/
theorem readRowsAnswerViews : Obligations.ReadRowsAnswerViews := by
  intro s tag h u
  have answers (view : Byte) (clear : Bool) {a : Answer} (ha : readView view 0 clear u = a) := read_arrives h tag view 0 clear ha
  refine ⟨answers 0 false rfl, answers 3 false rfl, answers 5 false rfl, answers 7 false rfl, answers 8 false rfl, ?head,
    answers 10 false rfl, answers 10 true rfl⟩
  case head =>
    have hrecords : u.delivery = s.delivery := taking_delivery s
    rw [← hrecords]
    exact answers 9 false rfl

/-- Settles O35: the cases of `readView` for LAY, SLOT, JOB and PROGRAM, read in the state the request is executed in. -/
theorem readRowsByNumber : Obligations.ReadRowsByNumber := by
  intro s tag n h u
  have answers (view : Byte) {a : Answer} (ha : readView view n false u = a) := read_arrives h tag view n false ha
  have hlay : u.lay? n.toNat = s.lay? n.toNat := taking_lay? s _
  have hjob : u.job? n.toNat = s.job? n.toNat := taking_job? s _
  rw [← hlay, ← hjob, ← taking_slot s, ← taking_viewProgram s]
  refine ⟨fun hn => answers 1 (readView_lay_badArg false hn), fun hn hl => answers 1 (readView_lay_free false hn hl),
    fun l hn hl => answers 1 (readView_lay_live false hn hl), fun hn => answers 2 (readView_slot_badArg false hn),
    fun hn => answers 2 (readView_slot false hn), fun hn => answers 4 (readView_job_badArg false hn),
    fun hn hj => answers 4 (readView_job_missing false hn hj), fun e hn hj => ?job,
    fun hn => answers 6 (readView_program_badArg false hn), fun hn => answers 6 (readView_program false hn)⟩
  case job =>
    rw [← taking_viewJob]
    exact answers 4 (readView_job_present false hn hj)

end Sys2Proof.Machine
end

section
/-! The management requests' layouts (spec file 12), and MGMT payloads that do not parse (logs 22 and 30). -/

namespace Sys2Proof.Machine

/-! ### Requests read back (Figure 59) -/

/-- The count byte bounds the steps an encoding can hold; a good frame holds fewer (`parseRequest_encode_loadProgram`). -/
theorem parseRequest_encode_countedSteps (program : Byte) {raw : List RawStep} (h : raw.length ≤ 255) :
    parseRequest (encodeRequest (.loadProgram program raw)) = some (.loadProgram program raw) := by
  refine (parseRequest_loadProgram program _ _).trans ?_
  rw [toNat_byteOf (by omega), parseRawSteps_steps]
  rfl

theorem parseRequest_encode_loadJob (entry : JobLoad) :
    parseRequest (encodeRequest (.loadJob entry)) = some (.loadJob entry) := by
  refine (parseRequest_loadJob _).trans ?_
  rw [requestArgs, parseJobLoad_encode]
  rfl

theorem parseRequest_encode_dropJob (job : BitVec 16) : parseRequest (encodeRequest (.dropJob job)) = some (.dropJob job) := by
  refine (parseRequest_dropJob _ _).trans ?_
  rw [word16_parts]

theorem parseRequest_encode_clearEvents (flags counters : BitVec 32) :
    parseRequest (encodeRequest (.clearEvents flags counters)) = some (.clearEvents flags counters) := by
  refine (parseRequest_clearEvents _ _ _ _ _ _ _ _).trans ?_
  rw [word32_parts, word32_parts]

/-- Settles O32: each request is read back by the branch of `parseRequest` its code selects. -/
theorem requestsRoundTrip : Obligations.RequestsRoundTrip := by
  intro r hdata hsteps
  cases r with
  | echo data => exact (parseRequest_echo data).trans (if_pos (hdata data rfl))
  | read view arg clear => exact parseRequest_encode_read view arg clear
  | loadCell values => exact parseRequest_encode_loadCell values
  | loadSlot slot config => exact parseRequest_encode_loadSlot slot config
  | loadSeverity kind cls notice => exact parseRequest_encode_loadSeverity kind cls notice
  | loadProgram program steps => exact parseRequest_encode_countedSteps program (hsteps program steps rfl)
  | eraseProgram program => exact parseRequest_eraseProgram program
  | loadJob entry => exact parseRequest_encode_loadJob entry
  | dropJob job => exact parseRequest_encode_dropJob job
  | cellControl action => exact parseRequest_cellControl action
  | layControl lay action => exact parseRequest_layControl lay action
  | takeDelivery => exact parseRequest_takeDelivery
  | clearEvents flags counters => exact parseRequest_encode_clearEvents flags counters

/-! ### BAD_REQUEST (R173, R188, R198) -/

section
variable {s : State} {payload : List Byte} (tag : Byte)

theorem listens_of_awaitsRequest (h : s.awaitsRequest) : s.listens := by
  obtain ⟨hreset, hlock, -⟩ := h
  exact ⟨hreset, hlock⟩

theorem mgmtFrame_empty : mgmtFrame tag [] = .rejected 5 (some .length) := rfl

theorem mgmtFrame_tooLong (h : 240 < payload.length) : mgmtFrame tag payload = .rejected 3 (some .length) := by
  have hne : payload ≠ [] := List.ne_nil_of_length_pos (by omega)
  rw [mgmtFrame, if_neg hne, if_pos h]

/-- A payload that no good frame holds fails the check that rejects the frame (log 30). -/
theorem exec_badRequest_rejected {check : Nat} {flag : Option RxFlag} (h : s.listens)
    (hf : mgmtFrame tag payload = .rejected check flag) :
    exec (.badRequest tag payload) s = .next (event (rejectFrame .u check flag) s) := by
  change execBadRequest tag payload s = _
  rw [execBadRequest, hf, frameArrives_rejected h]

theorem exec_badRequest_unparsed (h : s.awaitsRequest) (h1 : 1 ≤ payload.length) (h240 : payload.length ≤ 240)
    (hp : parseRequest payload = none) :
    exec (.badRequest tag payload) s = .next (takeFrame (s.taking.answer (replyFrame tag payload .badRequest []))) := by
  have ha : answerOf payload s.taking = refuse .badRequest s.taking := by rw [answerOf, hp]
  change execBadRequest tag payload s = _
  rw [execBadRequest, mgmt_executed h1 h240 h, ha]
  rfl

end

/-- Settles O36: the REPLY to a payload that is executed and does not parse, and the two frames that checks 5 and 3 reject. -/
theorem unparsedRequestIsAnswered : Obligations.UnparsedRequestIsAnswered := by
  intro s tag payload h
  have hlistens : s.listens := listens_of_awaitsRequest h
  refine ⟨exec_badRequest_unparsed tag h, fun hp => ?noByte, fun hp => ?tooLong⟩
  case noByte =>
    subst hp
    rw [exec_badRequest_rejected tag hlistens (mgmtFrame_empty tag), event, rejectFrame_u]
    rfl
  case tooLong =>
    rw [exec_badRequest_rejected tag hlistens (mgmtFrame_tooLong tag hp), event, rejectFrame_u]
    rfl

end Sys2Proof.Machine
end

section
/-! Every command is taken, and none touches the queue of commands. -/

namespace Sys2Proof.Machine

/-! ### What each command leaves of the queue -/

theorem unlessReset_pending {f : State → State} {s : State} (h : (f s).pending = s.pending) : (unlessReset f s).pending = s.pending := by
  unfold unlessReset
  split
  · rfl
  · exact h

/-- A timer's expiry, whose own effect touches nothing of the frame, leaves the queue. -/
theorem expiry_pending {prim : State → Effect} {s : State} (h : (prim s).1.untouched = s.untouched) :
    (unlessReset (event prim) s).pending = s.pending := unlessReset_pending (event_pending (pending_of_untouched h))

theorem ringFalls_pending (receiving : Bool) (s : State) : (ringFalls receiving s).1.pending = s.pending := by rw [ringFalls_eq]

theorem pumpAll_pending (s : State) : (pumpAll s).pending = s.pending := (pumpAll_keeps s).1

theorem frameEnds_pending (s : State) : (frameEnds s).pending = s.pending := by
  unfold frameEnds
  split
  · rfl
  · exact pumpAll_pending _

theorem orderFrameEnds_pending (s : State) : (orderFrameEnds s).pending = s.pending := by
  unfold orderFrameEnds
  split
  · rfl
  · dsimp only; split <;> rfl

/-- Settles O2: command by command what it leads to; the commands not named are frames that arrive. -/
theorem everyCommandAnswersNext : Obligations.EveryCommandAnswersNext := by
  intro c s
  cases c with
  | powerOn | resetNAssert => exact ⟨_, rfl, rfl⟩
  | resetNRelease => exact ⟨_, rfl, by split <;> rfl⟩
  | identAns | done | refused | pos | strokeBegin | fault | button | presence | guardState =>
    exact ⟨_, rfl, reportArrives_pending _ _ _ s⟩
  | uPortLockGained =>
    refine ⟨_, rfl, unlessReset_pending ?_⟩
    split
    · rfl
    · exact pumpAll_pending _
  | uPortLockLost receiving =>
    refine ⟨_, rfl, unlessReset_pending ?_⟩
    split
    · rfl
    · split
      · exact event_pending (rejectFrame_pending _ _ _ _)
      · rfl
  | ringUp => exact ⟨_, rfl, unlessReset_pending rfl⟩
  | ringDown receiving =>
    refine ⟨_, rfl, unlessReset_pending ?_⟩
    split
    · exact event_pending (ringFalls_pending receiving s)
    · rfl
  | uPortFrameEnd => exact ⟨_, rfl, unlessReset_pending (frameEnds_pending s)⟩
  | orderFrameEnd => exact ⟨_, rfl, unlessReset_pending (orderFrameEnds_pending s)⟩
  | fillTimerExpiry => exact ⟨_, rfl, expiry_pending (fillExpiry_untouched s)⟩
  | orderTimerExpiry slot => exact ⟨_, rfl, expiry_pending (orderExpiry_untouched slot s)⟩
  | identTimerExpiry slot => exact ⟨_, rfl, expiry_pending (identExpiry_untouched slot s)⟩
  | permitWindowExpiry => exact ⟨_, rfl, expiry_pending (windowExpiry_untouched s)⟩
  | strokeTimerExpiry => exact ⟨_, rfl, expiry_pending (strokeExpiry_untouched s)⟩
  | idleTimerExpiry => exact ⟨_, rfl, expiry_pending (idleExpiry_untouched s)⟩
  | wakeSettleExpiry => exact ⟨_, rfl, expiry_pending (settleExpiry_untouched s)⟩
  | lockWaitExpiry => exact ⟨_, rfl, expiry_pending (lockWaitExpiry_untouched s)⟩
  | admission => exact ⟨_, rfl, unlessReset_pending (event_pending (admitTicket_pending s))⟩
  | _ => exact ⟨_, rfl, frameArrives_pending _ _ s⟩

end Sys2Proof.Machine
end
